-- ==== Sys2Proof/Word.lean ====
section
/-! DEFINITION. The word types of the block and the shape of one host bus access (00_scope R9, 20_memory R62). -/

namespace Sys2Proof

/-- A byte: an input character, a payload byte, a window byte. -/
abbrev Byte := BitVec 8

/-- The 16-bit address offset of a record (00_scope R9). -/
abbrev Half := BitVec 16

/-- A host register, a target address, the CRC register (00_scope R9). -/
abbrev Word := BitVec 32

/-- The direction of a bus access: DIR = 0 a read, DIR = 1 a write (30_encoding R107). -/
inductive Dir where
  | read
  | write
deriving DecidableEq, Repr

/-- The widths a host could try. Only `w32` is an access of the block (20_memory R62). -/
inductive AccessWidth where
  | w8
  | w16
  | w32
deriving DecidableEq, Repr

/-- One bus access as the host issues it. `offset` is the host address less BASE (00_scope R11), so an address
below BASE has a negative offset. A read carries no data and its `data` is not looked at. -/
structure Access where
  dir    : Dir
  width  : AccessWidth
  offset : Int
  data   : Word
deriving DecidableEq, Repr

end Sys2Proof
end

