-- ==== Sys2Proof/Config.lean ====
section
/-! DEFINITION. What an implementation fixes: the two OPEN parameters MAX_WINDOW and BASE, neither with a value
here, and the constants the spec states. -/

namespace Sys2Proof

/-- MAX_WINDOW less one, for an unknown MAX_WINDOW (92_eei D13, OPEN; assumption log 3). No body: nothing is known
of it but its range. -/
opaque Config.maxWindowPred : Fin 4294967295

/-- BASE, the host address of the register window (00_scope R11, OPEN; assumption log 4). -/
opaque Config.base : Nat

/-- MAX_WINDOW, the capacity of the window buffer, 1 to 2^32 - 1 (00_scope R10). -/
def Config.maxWindow : Nat := Config.maxWindowPred.val + 1

/-- The erase value (00_scope R12, R16). -/
def Config.eraseValue : Byte := 0xFF#8

/-- The reflected CRC polynomial (00_scope R2). -/
def Config.crcPolynomial : Word := 0xEDB88320#32

/-- The CRC's initial register, which is also its final XOR (00_scope R2). -/
def Config.crcOnes : Word := 0xFFFFFFFF#32

/-- The number of payload bytes PBUF has (10_state R47). -/
def Config.payloadCapacity : Nat := 255

end Sys2Proof
end

