-- ==== Sys2Proof/Syntax.lean ====
section
/-! DEFINITION. The syntax: one constructor for each row of spec/opcode_table.json, in the table's order and its
three formats (30_encoding R90): command words, record types, bus accesses. -/

namespace Sys2Proof

inductive Instr where
  -- format CMD: the words written to CMD (30_encoding R92, R93)
  /-- NOP, 43_control R201 -/
  | nop
  /-- RESET, 43_control R202 -/
  | reset
  /-- START, 42_window R170 -/
  | start
  /-- CHAR c, 40_record R120 -/
  | char (c : Byte)
  /-- EOI, 42_window R175 -/
  | eoi
  /-- CRC_INIT, 42_window R182 -/
  | crcInit
  /-- CRC_BYTE b, 42_window R183 -/
  | crcByte (b : Byte)
  /-- ILLEGAL, any other command word w, 30_encoding R93 -/
  | illegal (w : Word)
  -- format RTYPE: the kinds of a committed record (30_encoding R100)
  /-- REC_DATA, 41_memory R153 -/
  | recData
  /-- REC_EOF, 41_memory R154 -/
  | recEof
  /-- REC_ELA, 41_memory R155 and R156 -/
  | recEla
  /-- REC_IGNORED, any other type code t, 41_memory R157 -/
  | recIgnored (t : Byte)
  -- format BUS: the reads and writes of the register window (30_encoding R107)
  /-- RD_CMD, offset 0x00, 43_control R207 and R209 -/
  | rdCmd
  /-- RD_STATUS, offset 0x04, 43_control R207 -/
  | rdStatus
  /-- RD_WIN_START, offset 0x08, 43_control R207 -/
  | rdWinStart
  /-- RD_WIN_SIZE, offset 0x0C, 43_control R207 -/
  | rdWinSize
  /-- RD_HIGH_BASE, offset 0x10, 43_control R207 -/
  | rdHighBase
  /-- RD_CRC_STATE, offset 0x14, 43_control R207 -/
  | rdCrcState
  /-- RD_CRC_RESULT, offset 0x18, 43_control R207 and R184 -/
  | rdCrcResult
  /-- RD_CHECKSUM, offset 0x1C, 43_control R207 -/
  | rdChecksum
  /-- RD_LINE_COUNT, offset 0x20, 43_control R207 -/
  | rdLineCount
  /-- RD_LINE_RESULT, offset 0x24, 43_control R207 -/
  | rdLineResult
  /-- RD_ERR_COUNT, offset 0x28, 43_control R207 -/
  | rdErrCount
  /-- RD_ERR_LINE, offset 0x2C, 43_control R207 -/
  | rdErrLine
  /-- RD_BUF_INDEX, offset 0x30, 43_control R207 -/
  | rdBufIndex
  /-- RD_BUF_DATA, offset 0x34, 43_control R207 and R208 -/
  | rdBufData
  /-- RD_PARSE_STATE, offset 0x38, 43_control R207 -/
  | rdParseState
  /-- RD_MAX_WINDOW, offset 0x3C, 43_control R207 -/
  | rdMaxWindow
  /-- WR_CMD of word w, 43_control R200 -/
  | wrCmd (w : Word)
  /-- WR_WIN_START of word w, 43_control R203 -/
  | wrWinStart (w : Word)
  /-- WR_WIN_SIZE of word w, 43_control R204 -/
  | wrWinSize (w : Word)
  /-- WR_BUF_INDEX of word w, 43_control R205 -/
  | wrBufIndex (w : Word)
  /-- WR_IGNORED of word w at a read-only offset, 43_control R206 -/
  | wrIgnored (offset : BitVec 6) (w : Word)
deriving DecidableEq, Repr

end Sys2Proof
end

