-- ==== Sys2Proof/WellFormed.lean ====
section
/-! DEFINITION. When an instruction's operands are ones its encoding admits: an ILLEGAL word is illegal by 30_encoding
R93, an IGNORED type is none of the three named ones (R100), an ignored write is at a read-only offset (43_control
R206). Every other operand may hold any value. -/

namespace Sys2Proof

/-- R93, in its own words: OP 0x07 to 0xFF, or RSV non-zero, or ARG non-zero with an OP other than CHAR and CRC_BYTE. -/
def isIllegalWord (w : Word) : Bool :=
  let op := w.extractLsb' 24 8
  let rsv := w.extractLsb' 8 16
  let arg := w.extractLsb' 0 8
  decide (7 ≤ op.toNat) || rsv != 0#16 || (arg != 0#8 && op != 0x03#8 && op != 0x06#8)

/-- The twelve offsets of the read-only registers (43_control R206). -/
def readOnlyOffsets : List (BitVec 6) :=
  [0x04#6, 0x10#6, 0x14#6, 0x18#6, 0x1C#6, 0x20#6, 0x24#6, 0x28#6, 0x2C#6, 0x34#6, 0x38#6, 0x3C#6]

/-- The operands are ones the encoding of the row admits. -/
def Instr.wellFormed : Instr → Bool
  | .illegal w => isIllegalWord w
  | .recIgnored t => t != 0x00#8 && t != 0x01#8 && t != 0x04#8
  | .wrIgnored offset _ => readOnlyOffsets.contains offset
  | .nop | .reset | .start | .char _ | .eoi | .crcInit | .crcByte _ => true
  | .recData | .recEof | .recEla => true
  | .rdCmd | .rdStatus | .rdWinStart | .rdWinSize | .rdHighBase | .rdCrcState | .rdCrcResult | .rdChecksum | .rdLineCount | .rdLineResult
  | .rdErrCount | .rdErrLine | .rdBufIndex | .rdBufData | .rdParseState | .rdMaxWindow => true
  | .wrCmd _ | .wrWinStart _ | .wrWinSize _ | .wrBufIndex _ => true

end Sys2Proof
end

