-- ==== Sys2Proof/Decode.lean ====
section
/-! DEFINITION. Decoding: command words, record types and bus accesses (30_encoding R90 to R93, R100, R107, R108), the
table's own word numbering, and the encoder written from the same tables. -/

namespace Sys2Proof

/-- What a command word asks for (30_encoding R92, R93). -/
inductive Command where
  | nop
  | reset
  | start
  | char (c : Byte)
  | eoi
  | crcInit
  | crcByte (b : Byte)
  | illegal (w : Word)
deriving DecidableEq, Repr

/-- The four kinds TYPE_DECODE tells apart (30_encoding R100). -/
inductive RecordKind where
  | data
  | eof
  | ela
  | ignored
deriving DecidableEq, Repr

/-- Why a host access is no access of the block (20_memory R62). -/
inductive BadAccess where
  /-- a width of 8 or 16 bits -/
  | width
  /-- an offset outside 0x00 to 0x3F -/
  | outsideWindow
  /-- an offset that is no multiple of 4 -/
  | misaligned
deriving DecidableEq, Repr

/-- The three things the block decodes, one for each format of the opcode table. -/
inductive Encoding where
  /-- format CMD: a word written to CMD -/
  | command (w : Word)
  /-- format RTYPE: the type code of a complete record -/
  | recordType (t : Byte)
  /-- format BUS: a host access -/
  | bus (a : Access)
deriving DecidableEq, Repr

/-- The command a word written to CMD stands for: the seven patterns of R92 in order, CHAR and CRC_BYTE by bits 31 to 8
alone (their mask is 0xFFFFFF00), then ILLEGAL (R108). -/
def decodeCommand (w : Word) : Command :=
  if w = 0x00000000#32 then .nop
  else if w = 0x01000000#32 then .reset
  else if w = 0x02000000#32 then .start
  else if w.extractLsb' 8 24 = 0x030000#24 then .char (w.extractLsb' 0 8)
  else if w = 0x04000000#32 then .eoi
  else if w = 0x05000000#32 then .crcInit
  else if w.extractLsb' 8 24 = 0x060000#24 then .crcByte (w.extractLsb' 0 8)
  else .illegal w

/-- The command's row of the opcode table. -/
def commandInstr : Command → Instr
  | .nop => .nop
  | .reset => .reset
  | .start => .start
  | .char c => .char c
  | .eoi => .eoi
  | .crcInit => .crcInit
  | .crcByte b => .crcByte b
  | .illegal w => .illegal w

/-- TYPE_DECODE (R100): 0x00, 0x01 and 0x04 by name, every other code IGNORED. -/
def decodeRecordType (t : Byte) : RecordKind :=
  if t = 0x00#8 then .data
  else if t = 0x01#8 then .eof
  else if t = 0x04#8 then .ela
  else .ignored

/-- The row of the opcode table a record type belongs to. -/
def recordInstr (t : Byte) : Instr :=
  match decodeRecordType t with
  | .data => .recData
  | .eof => .recEof
  | .ela => .recEla
  | .ignored => .recIgnored t

/-- The read row of an offset (R107, 20_memory R61); none where the offset is no multiple of 4. -/
def readRow (offset : BitVec 6) : Option Instr :=
  match offset with
  | 0x00#6 => some .rdCmd
  | 0x04#6 => some .rdStatus
  | 0x08#6 => some .rdWinStart
  | 0x0C#6 => some .rdWinSize
  | 0x10#6 => some .rdHighBase
  | 0x14#6 => some .rdCrcState
  | 0x18#6 => some .rdCrcResult
  | 0x1C#6 => some .rdChecksum
  | 0x20#6 => some .rdLineCount
  | 0x24#6 => some .rdLineResult
  | 0x28#6 => some .rdErrCount
  | 0x2C#6 => some .rdErrLine
  | 0x30#6 => some .rdBufIndex
  | 0x34#6 => some .rdBufData
  | 0x38#6 => some .rdParseState
  | 0x3C#6 => some .rdMaxWindow
  | _ => none

/-- The write row of an offset: the four specific rows, then WR_IGNORED at the read-only registers (R107). -/
def writeRow (offset : BitVec 6) (w : Word) : Option Instr :=
  match offset with
  | 0x00#6 => some (.wrCmd w)
  | 0x08#6 => some (.wrWinStart w)
  | 0x0C#6 => some (.wrWinSize w)
  | 0x30#6 => some (.wrBufIndex w)
  | _ => if readOnlyOffsets.contains offset then some (.wrIgnored offset w) else none

/-- The BUS row of a direction and an offset inside the window (R107). -/
def busRow (dir : Dir) (offset : BitVec 6) (data : Word) : Option Instr :=
  match dir with
  | .read => readRow offset
  | .write => writeRow offset data

/-- The instruction of a host access, or why it is none (20_memory R62). Total on every access. -/
def decodeAccess (a : Access) : Except BadAccess Instr :=
  if a.width ≠ .w32 then .error .width
  else if a.offset < 0 ∨ 64 ≤ a.offset then .error .outsideWindow
  else
    match busRow a.dir (BitVec.ofInt 6 a.offset) a.data with
    | some i => .ok i
    | none => .error .misaligned

/-- Decoding, over the three formats. -/
def decode : Encoding → Except BadAccess Instr
  | .command w => .ok (commandInstr (decodeCommand w))
  | .recordType t => .ok (recordInstr t)
  | .bus a => decodeAccess a

/-- A 32-bit read of an offset. -/
def readAccess (offset : BitVec 6) : Access :=
  { dir := .read, width := .w32, offset := (offset.toNat : Int), data := 0#32 }

/-- A 32-bit write of a word to an offset. -/
def writeAccess (offset : BitVec 6) (w : Word) : Access :=
  { dir := .write, width := .w32, offset := (offset.toNat : Int), data := w }

/-- A command word from its fields OP and ARG, with RSV zero (R91). -/
def commandWord (op arg : Byte) : Word := op ++ 0x0000#16 ++ arg

/-- The encoder: the words of a well-formed instruction, from R92, R100 and R107. -/
def encode : Instr → Encoding
  | .nop => .command (commandWord 0x00#8 0x00#8)
  | .reset => .command (commandWord 0x01#8 0x00#8)
  | .start => .command (commandWord 0x02#8 0x00#8)
  | .char c => .command (commandWord 0x03#8 c)
  | .eoi => .command (commandWord 0x04#8 0x00#8)
  | .crcInit => .command (commandWord 0x05#8 0x00#8)
  | .crcByte b => .command (commandWord 0x06#8 b)
  | .illegal w => .command w
  | .recData => .recordType 0x00#8
  | .recEof => .recordType 0x01#8
  | .recEla => .recordType 0x04#8
  | .recIgnored t => .recordType t
  | .rdCmd => .bus (readAccess 0x00#6)
  | .rdStatus => .bus (readAccess 0x04#6)
  | .rdWinStart => .bus (readAccess 0x08#6)
  | .rdWinSize => .bus (readAccess 0x0C#6)
  | .rdHighBase => .bus (readAccess 0x10#6)
  | .rdCrcState => .bus (readAccess 0x14#6)
  | .rdCrcResult => .bus (readAccess 0x18#6)
  | .rdChecksum => .bus (readAccess 0x1C#6)
  | .rdLineCount => .bus (readAccess 0x20#6)
  | .rdLineResult => .bus (readAccess 0x24#6)
  | .rdErrCount => .bus (readAccess 0x28#6)
  | .rdErrLine => .bus (readAccess 0x2C#6)
  | .rdBufIndex => .bus (readAccess 0x30#6)
  | .rdBufData => .bus (readAccess 0x34#6)
  | .rdParseState => .bus (readAccess 0x38#6)
  | .rdMaxWindow => .bus (readAccess 0x3C#6)
  | .wrCmd w => .bus (writeAccess 0x00#6 w)
  | .wrWinStart w => .bus (writeAccess 0x08#6 w)
  | .wrWinSize w => .bus (writeAccess 0x0C#6 w)
  | .wrBufIndex w => .bus (writeAccess 0x30#6 w)
  | .wrIgnored offset w => .bus (writeAccess offset w)

/-- The bus access of an opcode-table word: bits 5 to 0 the offset, bit 6 DIR (R107), the write data in the four bytes
after them. None where bit 7 is set or the offset has no row. -/
def tableBus (w : Nat) : Option Access :=
  let b := BitVec.ofNat 8 w
  let dir := if b.getLsbD 6 then Dir.write else Dir.read
  let offset := b.extractLsb' 0 6
  let data := if b.getLsbD 6 then BitVec.ofNat 32 (w / 256) else 0#32
  if b.getLsbD 7 then none
  else
    match busRow dir offset data with
    | some _ => some { dir := dir, width := .w32, offset := (offset.toNat : Int), data := data }
    | none => none

/-- What a word of the opcode table's numbering encodes (assumption log 12): 32 bits are a command word; 8 bits are a
bus access where they have a BUS row and else a record type; 7 bits, and 40 bits with the write data, are a bus access. -/
def tableEncoding (nbits w : Nat) : Option Encoding :=
  if nbits = 32 then some (.command (BitVec.ofNat 32 w))
  else if nbits = 8 then
    match tableBus (w % 256) with
    | some a => some (.bus a)
    | none => some (.recordType (BitVec.ofNat 8 w))
  else if nbits = 7 then (tableBus (w % 128)).map .bus
  else if nbits = 40 then (tableBus w).map .bus
  else none

/-- The instruction the decoder reads from a word of the opcode table's numbering. -/
def decodeTableWord (nbits w : Nat) : Option Instr :=
  match tableEncoding nbits w with
  | some e =>
    match decode e with
    | .ok i => some i
    | .error _ => none
  | none => none

end Sys2Proof
end

