-- ==== Sys2Proof/Machine/State.lean ====
section
/-! DEFINITION. The state of the block as plain data: every element 10_state R20 lists, and two fields of the model's
own for the host side of the bus. -/

namespace Sys2Proof.Machine

/-- STATUS.STATE (10_state R24). -/
inductive RunState where
  | idle
  | running
  | done
  | failed
deriving DecidableEq, Repr

/-- STATUS.FATAL: the five codes that are ever written (10_state R29). -/
inductive FatalCode where
  | noError
  | winZero
  | winOverflow
  | winTooLarge
  | empty
deriving DecidableEq, Repr

/-- The three line errors (60_exceptions R233). -/
inductive LineError where
  | badHex
  | truncated
  | elaShort
deriving DecidableEq, Repr

/-- LINE_RESULT.RESULT: the nine outcomes that are ever written (10_state R37). -/
inductive LineOutcome where
  | noLine
  | skipped
  | data
  | eof
  | ela
  | ignored
  | error (kind : LineError)
deriving DecidableEq, Repr

/-- PH, the parser phase (10_state R45). -/
inductive Phase where
  | ls
  | skip
  | hdr
  | pay
  | trl
  | bad
deriving DecidableEq, Repr

/-- A byte buffer: (index, byte) pairs in one canonical form (`Memory.wf` of Machine/Ops.lean). -/
abbrev Memory := List Host.Cell

/-- The machine. STATUS and LINE_RESULT are held by their fields, and read back as words in Machine/Flags.lean;
`pending` and `readData` are the model's own (assumption log 1 and 2). -/
structure State where
  /-- STATUS.STATE, R24 -/
  runState    : RunState
  /-- STATUS.BUF_VALID, R25 -/
  bufValid    : Bool
  /-- STATUS.ANY_HIT, R26 -/
  anyHit      : Bool
  /-- STATUS.TERM_SEEN, R27 -/
  termSeen    : Bool
  /-- STATUS.CMD_ERR, R28 -/
  cmdErr      : Bool
  /-- STATUS.FATAL, R29 -/
  fatal       : FatalCode
  /-- WIN_START, R30 -/
  winStart    : Word
  /-- WIN_SIZE, R31 -/
  winSize     : Word
  /-- HIGH_BASE, R32 -/
  highBase    : Word
  /-- CRC_STATE, R33 -/
  crcState    : Word
  /-- CHECKSUM, R35 -/
  checksum    : Word
  /-- LINE_COUNT, R36 -/
  lineCount   : Word
  /-- LINE_RESULT.RESULT, R37 -/
  lineOutcome : LineOutcome
  /-- LINE_RESULT.RTYPE, R37 -/
  lineRtype   : Byte
  /-- ERR_COUNT, R38 -/
  errCount    : Word
  /-- ERR_LINE, R39 -/
  errLine     : Word
  /-- BUF_INDEX, R40 -/
  bufIndex    : Word
  /-- ACT_START, R44 -/
  actStart    : Word
  /-- ACT_SIZE, R44 -/
  actSize     : Word
  /-- PH, R45 -/
  ph          : Phase
  /-- POS, R45 -/
  pos         : BitVec 10
  /-- BC, R46 -/
  bc          : Byte
  /-- OFF, R46 -/
  off         : Half
  /-- RTYPE, R46 -/
  rtype       : Byte
  /-- PBUF, R47 -/
  pbuf        : Memory
  /-- WBUF, R48 -/
  wbuf        : Memory
  /-- the host's accesses still to come, first one first -/
  pending     : List Access
  /-- what the last read returned to the host -/
  readData    : Word
deriving DecidableEq, Repr

/-- Why the machine stops with a fault. -/
inductive Fault where
  /-- Raised by CHAR: a payload digit in phase PAY whose byte index is outside 0 to 254, so that PBUF has no such byte
  (10_state R47). Safe: the machine stops; no state that meets R50 raises it (assumption log 8). -/
  | noPayloadByte (index : Nat)
deriving DecidableEq, Repr

/-- Why a step has no meaning. -/
inductive Refusal where
  /-- Raised by no arm of exec: every instruction has its meaning. Safe. -/
  | notModelled (mnemonic : String)
  /-- Raised by step: the next host access is none of the block's (20_memory R62: "the model gives it no step").
  Safe: the run stops. -/
  | notAnAccess (why : BadAccess)
deriving DecidableEq, Repr

/-- The machine right after power-on reset (70_reset R261). Of `pbuf`, `wbuf`, `pending` and `readData` the spec gives no
value: assumption log 7, 6, 1 and 2. -/
def State.reset : State where
  runState    := .idle
  bufValid    := false
  anyHit      := false
  termSeen    := false
  cmdErr      := false
  fatal       := .noError
  winStart    := 0x00000000#32
  winSize     := 0x00000000#32
  highBase    := 0x00000000#32
  crcState    := 0xFFFFFFFF#32
  checksum    := 0x00000000#32
  lineCount   := 0x00000000#32
  lineOutcome := .noLine
  lineRtype   := 0x00#8
  errCount    := 0x00000000#32
  errLine     := 0x00000000#32
  bufIndex    := 0x00000000#32
  actStart    := 0x00000000#32
  actSize     := 0x00000000#32
  ph          := .ls
  pos         := 0#10
  bc          := 0x00#8
  off         := 0x0000#16
  rtype       := 0x00#8
  pbuf        := []
  wbuf        := []
  pending     := []
  readData    := 0x00000000#32

end Sys2Proof.Machine
end

