-- ==== Sys2Proof/Machine/Ops.lean ====
section
/-! DEFINITION. The shared operations: the byte buffers, the CRC engine, the error actions (the block's analogue of
taking an exception) and the ways out of FAILED and DONE, the end of a run, and the host side of the bus. -/

namespace Sys2Proof.Machine

-- The byte buffers PBUF and WBUF.

/-- What an index that no entry lists reads as: the erase value (assumption log 6 and 7). -/
def Memory.unlisted : Byte := Config.eraseValue

/-- The canonical form: indices strictly rising, no entry equal to what an unlisted index reads as. -/
abbrev Memory.wf (m : Memory) : Prop :=
  (m.map (·.1)).Pairwise (· < ·) ∧ ∀ c ∈ m, c.2 ≠ Memory.unlisted

/-- The byte at index `a`. -/
def Memory.read : Memory → Nat → Byte
  | [], _ => Memory.unlisted
  | c :: m, a => if a = c.1 then c.2 else Memory.read m a

/-- `m` with the byte `b` at index `a`, in canonical form. -/
def Memory.write : Memory → Nat → Byte → Memory
  | [], a, b => if b = Memory.unlisted then [] else [(a, b)]
  | c :: m, a, b =>
    if a < c.1 then (if b = Memory.unlisted then c :: m else (a, b) :: c :: m)
    else if a = c.1 then (if b = Memory.unlisted then m else (a, b) :: m)
    else c :: Memory.write m a b

/-- `m` with the erase value at the indices 0 to n - 1: "for i in 0 .. z-1: WBufWrite(i, 0xFF)" (42_window R174). -/
def Memory.eraseBelow (m : Memory) (n : Nat) : Memory :=
  m.filter fun c => decide (n ≤ c.1)

/-- The bytes at indices 0 to n - 1, in index order. -/
def Memory.bytes (m : Memory) (n : Nat) : List Byte :=
  (List.range n).map m.read

-- The CRC engine.

/-- One of the eight shifts of crc_update (42_window R180). -/
def crcShift (r : Word) : Word :=
  if r.getLsbD 0 then (r >>> 1) ^^^ Config.crcPolynomial else r >>> 1

/-- `n` shifts. -/
def crcShifts : Nat → Word → Word
  | 0, r => r
  | n + 1, r => crcShifts n (crcShift r)

/-- crc_update(r, b) (42_window R180). -/
def crcUpdate (r : Word) (b : Byte) : Word :=
  crcShifts 8 (r ^^^ b.setWidth 32)

/-- The raw register after feeding bytes in order. -/
def crcFeed (r : Word) (bs : List Byte) : Word :=
  bs.foldl crcUpdate r

/-- CRC32(bytes) (42_window R181). -/
def crc32 (bs : List Byte) : Word :=
  crcFeed Config.crcOnes bs ^^^ Config.crcOnes

-- Errors. The block takes no trap (60_exceptions R230): entering an error is one of these three actions.

/-- LINE_RESULT <- the outcome and its type byte. -/
def setLine (outcome : LineOutcome) (rtype : Byte) (s : State) : State :=
  { s with lineOutcome := outcome, lineRtype := rtype }

/-- line_error(kind) (60_exceptions R233). -/
def lineError (kind : LineError) (s : State) : State :=
  { s with
    lineOutcome := .error kind
    lineRtype := if kind = .elaShort then s.rtype else 0x00#8
    errCount := s.errCount + 1#32
    errLine := s.lineCount }

/-- fatal(code) (60_exceptions R234): entry to FAILED, which saves nothing and vectors nowhere (R245). -/
def fatalError (code : FatalCode) (s : State) : State :=
  { s with fatal := code, runState := .failed }

/-- cmd_error() (60_exceptions R235). -/
def cmdError (s : State) : State :=
  { s with cmdErr := true }

-- The ways out of FAILED and DONE (60_exceptions R246): reset and START.

/-- reset() (70_reset R260): every element of the block at its reset value. The host's accesses to come and the value it
was last given are not the block's (assumption log 14). -/
def resetBlock (s : State) : State :=
  { State.reset with pending := s.pending, readData := s.readData }

/-- What every START clears, whatever the window (42_window R170). -/
def clearRun (s : State) : State :=
  { s with
    checksum := 0x00000000#32, highBase := 0x00000000#32
    lineCount := 0x00000000#32, lineOutcome := .noLine, lineRtype := 0x00#8
    errCount := 0x00000000#32, errLine := 0x00000000#32
    ph := .ls, pos := 0#10, bc := 0x00#8, off := 0x0000#16, rtype := 0x00#8
    anyHit := false, termSeen := false, fatal := .noError }

/-- accept(s, z) (42_window R174). -/
def acceptWindow (s : State) : State :=
  { s with
    actStart := s.winStart, actSize := s.winSize
    wbuf := s.wbuf.eraseBelow s.winSize.toNat
    bufValid := true, runState := .running }

/-- START for a window buffer of `capacity` bytes, the three checks in their fixed order (42_window R170 to R174,
60_exceptions R243). -/
def startRun (capacity : Nat) (s : State) : State :=
  let cleared := clearRun s
  if s.winSize.toNat = 0 then fatalError .winZero { cleared with bufValid := false }
  else if 2 ^ 32 < s.winStart.toNat + s.winSize.toNat then
    fatalError .winOverflow { cleared with bufValid := false }
  else if capacity < s.winSize.toNat then fatalError .winTooLarge { cleared with bufValid := false }
  else acceptWindow cleared

-- The end of a run.

/-- checksum_buffer() (42_window R178). -/
def checksumBuffer (s : State) : State :=
  let r := crcFeed Config.crcOnes (s.wbuf.bytes s.actSize.toNat)
  { s with crcState := r, checksum := r ^^^ Config.crcOnes, runState := .done }

/-- finish() (42_window R176). -/
def finish (s : State) : State :=
  if s.anyHit then checksumBuffer s else fatalError .empty s

-- The host side of the bus.

/-- A read answers its value and changes nothing of the block (43_control R207). -/
def respond (value : Word) (s : State) : State :=
  { s with readData := value }

/-- The access a host makes at one of its own addresses: the offset is taken from BASE (00_scope R11). -/
def busAccess (dir : Dir) (width : AccessWidth) (address : Nat) (data : Word) : Access :=
  { dir := dir, width := width, offset := (address : Int) - (Config.base : Int), data := data }

/-- The next access of the host, and the state without it. -/
def takeAccess (s : State) : Option (Access × State) :=
  match s.pending with
  | [] => none
  | a :: rest => some (a, { s with pending := rest })

/-- The state in which the host's next access is `a`. -/
def issue (a : Access) (s : State) : State :=
  { s with pending := a :: s.pending }

/-- The state whose next step runs what is encoded. A command is written to CMD and a bus access issued; a record of
type `t` stands parsed and complete with no payload, and the host's next access ends its line (assumption log 12). -/
def placeEncoding (e : Encoding) (s : State) : State :=
  match e with
  | .command w => issue (writeAccess 0x00#6 w) s
  | .bus a => issue a s
  | .recordType t =>
    issue (writeAccess 0x00#6 (commandWord 0x03#8 0x0A#8))
      { s with runState := .running, ph := .trl, pos := 8#10, bc := 0x00#8, off := 0x0000#16, rtype := t }

end Sys2Proof.Machine
end

