-- ==== Sys2Proof/Machine/Operands.lean ====
section
/-! DEFINITION. Operand forms: hex digits and the fields built from them, payload indices, target addresses and the
window, the Extended-High-Address operand. -/

namespace Sys2Proof.Machine

/-- is_hex(c) (30_encoding R95). -/
def isHex (c : Byte) : Bool :=
  (decide (0x30#8 ≤ c) && decide (c ≤ 0x39#8))
    || (decide (0x41#8 ≤ c) && decide (c ≤ 0x46#8))
    || (decide (0x61#8 ≤ c) && decide (c ≤ 0x66#8))

/-- hexval(c), a 4-bit value, for a hex digit c (30_encoding R95). -/
def hexVal (c : Byte) : BitVec 4 :=
  if c ≤ 0x39#8 then (c - 0x30#8).setWidth 4
  else if c ≤ 0x46#8 then (c - 0x41#8 + 10#8).setWidth 4
  else (c - 0x61#8 + 10#8).setWidth 4

/-- {v[3:0], d}: the next digit of an 8-bit field (40_record R127). -/
def pushDigit8 (v : Byte) (d : BitVec 4) : Byte :=
  v.extractLsb' 0 4 ++ d

/-- {v[11:0], d}: the next digit of the 16-bit offset (40_record R127). -/
def pushDigit16 (v : Half) (d : BitVec 4) : Half :=
  v.extractLsb' 0 12 ++ d

/-- k = POS - 8, the number of the payload digit, 10 bits (40_record R128). -/
def payloadDigit (pos : BitVec 10) : BitVec 10 :=
  pos - 8#10

/-- j = k >> 1, the payload byte the digit belongs to (40_record R128). -/
def payloadIndex (pos : BitVec 10) : Nat :=
  (payloadDigit pos >>> 1).toNat

/-- The payload byte after digit d: {d, 0} for the high digit, {old[7:4], d} for the low one (40_record R128). -/
def payloadByte (pos : BitVec 10) (old : Byte) (d : BitVec 4) : Byte :=
  if (payloadDigit pos).getLsbD 0 then old.extractLsb' 4 4 ++ d else d ++ 0x0#4

/-- a_i, the target address of payload byte i, modulo 2^32 (30_encoding R103). -/
def payloadAddr (s : State) (i : Nat) : Word :=
  s.highBase + s.off.setWidth 32 + BitVec.ofNat 32 i

/-- Whether a target address lies in the window of the current run; the end is not reduced (20_memory R66). -/
def inWindow (s : State) (a : Word) : Bool :=
  decide (s.actStart.toNat ≤ a.toNat) && decide (a.toNat < s.actStart.toNat + s.actSize.toNat)

/-- The WBUF index of a target address in the window (20_memory R66). -/
def windowIndex (s : State) (a : Word) : Nat :=
  a.toNat - s.actStart.toNat

/-- The new high base of an Extended-High-Address record: {PBUF[0], PBUF[1], 0x0000} (30_encoding R102). -/
def elaBase (s : State) : Word :=
  s.pbuf.read 0 ++ s.pbuf.read 1 ++ 0x0000#16

end Sys2Proof.Machine
end

