-- ==== Sys2Proof/Machine/Assembler.lean ====
section
/-! DEFINITION. The memory assembler: the four record kinds, commit and the end of a line (41_memory R150 to R162). -/

namespace Sys2Proof.Machine

/-- WBUF after payload byte i of a Data record, filtered on its own (41_memory R153). -/
def placePayloadByte (s : State) (w : Memory) (i : Nat) : Memory :=
  let a := payloadAddr s i
  if inWindow s a then w.write (windowIndex s a) (s.pbuf.read i) else w

/-- Whether payload byte i of a Data record lands in the window. -/
def payloadHits (s : State) (i : Nat) : Bool :=
  inWindow s (payloadAddr s i)

/-- Commit of a Data record: its BC payload bytes in increasing order (41_memory R153). -/
def commitData (s : State) : State :=
  setLine .data 0x00#8
    { s with
      wbuf := (List.range s.bc.toNat).foldl (placePayloadByte s) s.wbuf
      anyHit := s.anyHit || (List.range s.bc.toNat).any (payloadHits s) }

/-- Commit of a Terminator record (41_memory R154). -/
def commitEof (s : State) : State :=
  finish { setLine .eof 0x01#8 s with termSeen := true }

/-- Commit of an Extended-High-Address record: with fewer than two payload bytes the line error ELA_SHORT
(41_memory R155, R156). -/
def commitEla (s : State) : State :=
  if s.bc.toNat < 2 then lineError .elaShort s
  else setLine .ela 0x04#8 { s with highBase := elaBase s }

/-- Commit of a record of any other type `t` (41_memory R157). -/
def commitIgnored (t : Byte) (s : State) : State :=
  setLine .ignored t s

/-- commit(): by the record-type decoder (41_memory R152). -/
def commit (s : State) : State :=
  match decodeRecordType s.rtype with
  | .data => commitData s
  | .eof => commitEof s
  | .ela => commitEla s
  | .ignored => commitIgnored s.rtype s

/-- What the end of a line does by phase, LINE_COUNT already counted (41_memory R151). -/
def closeLine (s : State) : State :=
  match s.ph with
  | .ls => setLine .skipped 0x00#8 s
  | .skip => setLine .skipped 0x00#8 s
  | .hdr => lineError .truncated s
  | .pay => lineError .truncated s
  | .bad => lineError .badHex s
  | .trl => commit s

/-- end_of_line() (41_memory R151). -/
def endOfLine (s : State) : State :=
  { closeLine { s with lineCount := s.lineCount + 1#32 } with ph := .ls, pos := 0#10 }

/-- REC_DATA (41_memory R153). -/
def execRecData (s : State) : Host.Outcome State Fault Refusal :=
  .next (commitData s)

/-- REC_EOF (41_memory R154). -/
def execRecEof (s : State) : Host.Outcome State Fault Refusal :=
  .next (commitEof s)

/-- REC_ELA (41_memory R155, R156). -/
def execRecEla (s : State) : Host.Outcome State Fault Refusal :=
  .next (commitEla s)

/-- REC_IGNORED (41_memory R157). -/
def execRecIgnored (t : Byte) (s : State) : Host.Outcome State Fault Refusal :=
  .next (commitIgnored t s)

end Sys2Proof.Machine
end

