-- ==== Sys2Proof/Machine/Parser.lean ====
section
/-! DEFINITION. The record parser: CHAR and parse_char by phase (40_record R120 to R132). -/

namespace Sys2Proof.Machine

/-- parse_char in phase LS (40_record R125). -/
def parseLineStart (c : Byte) (s : State) : State :=
  if c = 0x3A#8 then { s with ph := .hdr, pos := 0#10, bc := 0x00#8, off := 0x0000#16, rtype := 0x00#8 }
  else { s with ph := .skip }

/-- The header field digit p belongs to, with digit d taken in (40_record R127). -/
def pushHeaderDigit (p : Nat) (d : BitVec 4) (s : State) : State :=
  if p ≤ 1 then { s with bc := pushDigit8 s.bc d }
  else if p ≤ 5 then { s with off := pushDigit16 s.off d }
  else { s with rtype := pushDigit8 s.rtype d }

/-- The phase after header digit p (40_record R127): BC is final from p = 2 on. -/
def headerPhase (s : State) : Phase :=
  if s.pos.toNat = 7 then (if s.bc = 0x00#8 then .trl else .pay) else s.ph

/-- parse_char in phase HDR (40_record R127). -/
def parseHeader (c : Byte) (s : State) : State :=
  if isHex c then
    { pushHeaderDigit s.pos.toNat (hexVal c) s with pos := s.pos + 1#10, ph := headerPhase s }
  else { s with ph := .bad }

/-- The phase after a payload digit (40_record R128). -/
def payloadPhase (s : State) : Phase :=
  if s.pos.toNat + 1 = 8 + 2 * s.bc.toNat then .trl else s.ph

/-- parse_char in phase PAY (40_record R128). A digit for which PBUF has no byte faults (assumption log 8). -/
def parsePayload (c : Byte) (s : State) : Host.Outcome State Fault Refusal :=
  if isHex c then
    let j := payloadIndex s.pos
    if j < Config.payloadCapacity then
      .next { s with
        pbuf := s.pbuf.write j (payloadByte s.pos (s.pbuf.read j) (hexVal c))
        pos := s.pos + 1#10
        ph := payloadPhase s }
    else .fault (.noPayloadByte j)
  else .next { s with ph := .bad }

/-- parse_char(c) (40_record R125 to R128). -/
def parseChar (c : Byte) (s : State) : Host.Outcome State Fault Refusal :=
  match s.ph with
  | .ls => .next (parseLineStart c s)
  | .skip => .next s
  | .hdr => .next (parseHeader c s)
  | .pay => parsePayload c s
  | .trl => .next s
  | .bad => .next s

/-- CHAR (40_record R120 to R124). -/
def execChar (c : Byte) (s : State) : Host.Outcome State Fault Refusal :=
  match s.runState with
  | .idle => .next (cmdError s)
  | .done => .next s
  | .failed => .next s
  | .running =>
    if c = 0x0D#8 then .next s
    else if c = 0x0A#8 then .next (endOfLine s)
    else parseChar c s

end Sys2Proof.Machine
end

