-- ==== Sys2Proof/Machine/Window.lean ====
section
/-! DEFINITION. The window extractor and the CRC engine's commands: START, EOI, CRC_INIT, CRC_BYTE (42_window R170 to
R187). -/

namespace Sys2Proof.Machine

/-- START (42_window R170), legal in every state. -/
def execStart (s : State) : Host.Outcome State Fault Refusal :=
  .next (startRun Config.maxWindow s)

/-- EOI's line end: only a pending line has one (42_window R175). -/
def endPendingLine (s : State) : State :=
  if s.ph = .ls then s else endOfLine s

/-- EOI's finish: the pending line may have been a Terminator (42_window R175). -/
def finishIfRunning (s : State) : State :=
  if s.runState = .running then finish s else s

/-- EOI (42_window R175). -/
def execEoi (s : State) : Host.Outcome State Fault Refusal :=
  match s.runState with
  | .idle => .next (cmdError s)
  | .done => .next s
  | .failed => .next s
  | .running => .next (finishIfRunning (endPendingLine s))

/-- CRC_INIT (42_window R182). -/
def execCrcInit (s : State) : Host.Outcome State Fault Refusal :=
  .next { s with crcState := Config.crcOnes }

/-- CRC_BYTE (42_window R183). -/
def execCrcByte (b : Byte) (s : State) : Host.Outcome State Fault Refusal :=
  .next { s with crcState := crcUpdate s.crcState b }

end Sys2Proof.Machine
end

