-- ==== Sys2Proof/Machine/Control.lean ====
section
/-! DEFINITION. The control commands and the bus writes: NOP, RESET, ILLEGAL, WR_CMD, WR_WIN_START, WR_WIN_SIZE,
WR_BUF_INDEX, WR_IGNORED (43_control R200 to R206, 30_encoding R93). -/

namespace Sys2Proof.Machine

/-- NOP (43_control R201). -/
def execNop (s : State) : Host.Outcome State Fault Refusal :=
  .next s

/-- RESET (43_control R202). -/
def execReset (s : State) : Host.Outcome State Fault Refusal :=
  .next (resetBlock s)

/-- ILLEGAL: a command error, whatever the word (30_encoding R93). -/
def execIllegal (_w : Word) (s : State) : Host.Outcome State Fault Refusal :=
  .next (cmdError s)

/-- WR_CMD: the word is decoded and its command runs inside this access (43_control R200). -/
def execWrCmd (w : Word) (s : State) : Host.Outcome State Fault Refusal :=
  match decodeCommand w with
  | .nop => execNop s
  | .reset => execReset s
  | .start => execStart s
  | .char c => execChar c s
  | .eoi => execEoi s
  | .crcInit => execCrcInit s
  | .crcByte b => execCrcByte b s
  | .illegal v => execIllegal v s

/-- WR_WIN_START (43_control R203). -/
def execWrWinStart (w : Word) (s : State) : Host.Outcome State Fault Refusal :=
  .next { s with winStart := w }

/-- WR_WIN_SIZE (43_control R204). -/
def execWrWinSize (w : Word) (s : State) : Host.Outcome State Fault Refusal :=
  .next { s with winSize := w }

/-- WR_BUF_INDEX (43_control R205). -/
def execWrBufIndex (w : Word) (s : State) : Host.Outcome State Fault Refusal :=
  .next { s with bufIndex := w }

/-- WR_IGNORED (43_control R206). -/
def execWrIgnored (_offset : BitVec 6) (_w : Word) (s : State) : Host.Outcome State Fault Refusal :=
  .next s

end Sys2Proof.Machine
end

