-- ==== Sys2Proof/Machine/Flags.lean ====
section
/-! DEFINITION. The codes of the status fields and the registers as the host reads them (10_state R22 to R43, 43_control
R207, R208). -/

namespace Sys2Proof.Machine

/-- STATUS.STATE (10_state R24). -/
def runStateCode : RunState → BitVec 2
  | .idle => 0#2
  | .running => 1#2
  | .done => 2#2
  | .failed => 3#2

/-- STATUS.FATAL (10_state R29). -/
def fatalCode : FatalCode → BitVec 4
  | .noError => 0#4
  | .winZero => 1#4
  | .winOverflow => 2#4
  | .winTooLarge => 3#4
  | .empty => 4#4

/-- The codes of the line errors (60_exceptions R232). -/
def lineErrorCode : LineError → BitVec 4
  | .badHex => 8#4
  | .truncated => 9#4
  | .elaShort => 10#4

/-- LINE_RESULT.RESULT (10_state R37). -/
def lineOutcomeCode : LineOutcome → BitVec 4
  | .noLine => 0#4
  | .skipped => 1#4
  | .data => 2#4
  | .eof => 3#4
  | .ela => 4#4
  | .ignored => 5#4
  | .error kind => lineErrorCode kind

/-- PH (10_state R45). -/
def phaseCode : Phase → BitVec 3
  | .ls => 0#3
  | .skip => 1#3
  | .hdr => 2#3
  | .pay => 3#3
  | .trl => 4#3
  | .bad => 5#3

/-- STATUS as read (10_state R23, 43_control R207). -/
def statusWord (s : State) : Word :=
  0#20 ++ fatalCode s.fatal ++ 0#2 ++ BitVec.ofBool s.cmdErr ++ BitVec.ofBool s.termSeen
    ++ BitVec.ofBool s.anyHit ++ BitVec.ofBool s.bufValid ++ runStateCode s.runState

/-- LINE_RESULT as read (10_state R37, 43_control R207). -/
def lineResultWord (s : State) : Word :=
  0#16 ++ s.lineRtype ++ 0#4 ++ lineOutcomeCode s.lineOutcome

/-- PARSE_STATE as read (10_state R42, 43_control R207). -/
def parseStateWord (s : State) : Word :=
  0#6 ++ s.pos ++ 0#13 ++ phaseCode s.ph

/-- CRC_RESULT as read (42_window R184). -/
def crcResultWord (s : State) : Word :=
  s.crcState ^^^ Config.crcOnes

/-- BUF_DATA as read: the byte at BUF_INDEX, or the "no byte" value 0x100 (43_control R208). -/
def bufDataWord (s : State) : Word :=
  if s.bufValid && decide (s.bufIndex.toNat < s.actSize.toNat) then
    (s.wbuf.read s.bufIndex.toNat).setWidth 32
  else 0x00000100#32

/-- MAX_WINDOW as read (10_state R43). -/
def maxWindowWord : Word :=
  BitVec.ofNat 32 Config.maxWindow

end Sys2Proof.Machine
end

