-- ==== Sys2Proof/Machine/Reads.lean ====
section
/-! DEFINITION. The sixteen bus reads: each answers its register's value and changes nothing of the block (43_control
R207, 20_memory R64). -/

namespace Sys2Proof.Machine

/-- RD_CMD (43_control R209). -/
def execRdCmd (s : State) : Host.Outcome State Fault Refusal :=
  .next (respond 0x00000000#32 s)

/-- RD_STATUS (10_state R23). -/
def execRdStatus (s : State) : Host.Outcome State Fault Refusal :=
  .next (respond (statusWord s) s)

/-- RD_WIN_START (10_state R30). -/
def execRdWinStart (s : State) : Host.Outcome State Fault Refusal :=
  .next (respond s.winStart s)

/-- RD_WIN_SIZE (10_state R31). -/
def execRdWinSize (s : State) : Host.Outcome State Fault Refusal :=
  .next (respond s.winSize s)

/-- RD_HIGH_BASE (10_state R32). -/
def execRdHighBase (s : State) : Host.Outcome State Fault Refusal :=
  .next (respond s.highBase s)

/-- RD_CRC_STATE (10_state R33). -/
def execRdCrcState (s : State) : Host.Outcome State Fault Refusal :=
  .next (respond s.crcState s)

/-- RD_CRC_RESULT (42_window R184). -/
def execRdCrcResult (s : State) : Host.Outcome State Fault Refusal :=
  .next (respond (crcResultWord s) s)

/-- RD_CHECKSUM (10_state R35). -/
def execRdChecksum (s : State) : Host.Outcome State Fault Refusal :=
  .next (respond s.checksum s)

/-- RD_LINE_COUNT (10_state R36). -/
def execRdLineCount (s : State) : Host.Outcome State Fault Refusal :=
  .next (respond s.lineCount s)

/-- RD_LINE_RESULT (10_state R37). -/
def execRdLineResult (s : State) : Host.Outcome State Fault Refusal :=
  .next (respond (lineResultWord s) s)

/-- RD_ERR_COUNT (10_state R38). -/
def execRdErrCount (s : State) : Host.Outcome State Fault Refusal :=
  .next (respond s.errCount s)

/-- RD_ERR_LINE (10_state R39). -/
def execRdErrLine (s : State) : Host.Outcome State Fault Refusal :=
  .next (respond s.errLine s)

/-- RD_BUF_INDEX (10_state R40). -/
def execRdBufIndex (s : State) : Host.Outcome State Fault Refusal :=
  .next (respond s.bufIndex s)

/-- RD_BUF_DATA (43_control R208). -/
def execRdBufData (s : State) : Host.Outcome State Fault Refusal :=
  .next (respond (bufDataWord s) s)

/-- RD_PARSE_STATE (10_state R42). -/
def execRdParseState (s : State) : Host.Outcome State Fault Refusal :=
  .next (respond (parseStateWord s) s)

/-- RD_MAX_WINDOW (10_state R43). -/
def execRdMaxWindow (s : State) : Host.Outcome State Fault Refusal :=
  .next (respond maxWindowWord s)

end Sys2Proof.Machine
end

