-- ==== Sys2Proof/Machine/Dispatch.lean ====
section
/-! DEFINITION. One arm per instruction. -/

namespace Sys2Proof.Machine

def exec (i : Instr) (s : State) : Host.Outcome State Fault Refusal :=
  match i with
  | .nop => Sys2Proof.Machine.execNop s
  | .reset => Sys2Proof.Machine.execReset s
  | .start => Sys2Proof.Machine.execStart s
  | .char c => Sys2Proof.Machine.execChar c s
  | .eoi => Sys2Proof.Machine.execEoi s
  | .crcInit => Sys2Proof.Machine.execCrcInit s
  | .crcByte b => Sys2Proof.Machine.execCrcByte b s
  | .illegal w => Sys2Proof.Machine.execIllegal w s
  | .recData => Sys2Proof.Machine.execRecData s
  | .recEof => Sys2Proof.Machine.execRecEof s
  | .recEla => Sys2Proof.Machine.execRecEla s
  | .recIgnored t => Sys2Proof.Machine.execRecIgnored t s
  | .rdCmd => Sys2Proof.Machine.execRdCmd s
  | .rdStatus => Sys2Proof.Machine.execRdStatus s
  | .rdWinStart => Sys2Proof.Machine.execRdWinStart s
  | .rdWinSize => Sys2Proof.Machine.execRdWinSize s
  | .rdHighBase => Sys2Proof.Machine.execRdHighBase s
  | .rdCrcState => Sys2Proof.Machine.execRdCrcState s
  | .rdCrcResult => Sys2Proof.Machine.execRdCrcResult s
  | .rdChecksum => Sys2Proof.Machine.execRdChecksum s
  | .rdLineCount => Sys2Proof.Machine.execRdLineCount s
  | .rdLineResult => Sys2Proof.Machine.execRdLineResult s
  | .rdErrCount => Sys2Proof.Machine.execRdErrCount s
  | .rdErrLine => Sys2Proof.Machine.execRdErrLine s
  | .rdBufIndex => Sys2Proof.Machine.execRdBufIndex s
  | .rdBufData => Sys2Proof.Machine.execRdBufData s
  | .rdParseState => Sys2Proof.Machine.execRdParseState s
  | .rdMaxWindow => Sys2Proof.Machine.execRdMaxWindow s
  | .wrCmd w => Sys2Proof.Machine.execWrCmd w s
  | .wrWinStart w => Sys2Proof.Machine.execWrWinStart w s
  | .wrWinSize w => Sys2Proof.Machine.execWrWinSize w s
  | .wrBufIndex w => Sys2Proof.Machine.execWrBufIndex w s
  | .wrIgnored offset w => Sys2Proof.Machine.execWrIgnored offset w s

end Sys2Proof.Machine
end

