-- ==== Sys2Proof/Machine/Step.lean ====
section
/-! DEFINITION. One step: the host's next access, decoded and run (00_scope R7). With none the block is idle and keeps
its state (60_exceptions R250, assumption log 1). -/

namespace Sys2Proof.Machine

/-- One step of the machine. -/
def step (s : State) : Host.Outcome State Fault Refusal :=
  match takeAccess s with
  | none => .next s
  | some (a, s') =>
    match decodeAccess a with
    | .ok i => exec i s'
    | .error why => .refused (.notAnAccess why)

/-- The state in which the next step runs the instruction of an opcode-table word: the host is about to issue it
(assumption log 12). -/
def State.withFetchWord (s : State) (nbits w : Nat) : State :=
  match tableEncoding nbits w with
  | some e => placeEncoding e s
  | none => s

end Sys2Proof.Machine
end

