-- ==== Sys2Proof/Machine/HostSide.lean ====
section
/-! DEFINITION. The host's side as far as the spec gives it: the pseudo-instructions' expansions (30_encoding R104, R105)
and what the host reports of a run (43_control R212 to R215). No step of the block uses them. -/

namespace Sys2Proof.Machine

/-- A command as the access that writes it to CMD (30_encoding R104). -/
def commandAccess (op arg : Byte) : Access :=
  writeAccess 0x00#6 (commandWord op arg)

/-- FEED "text" (30_encoding R105). -/
def feedAccesses (text : List Byte) : List Access :=
  text.map (commandAccess 0x03#8)

/-- LINE "text" (30_encoding R105). -/
def lineAccesses (text : List Byte) : List Access :=
  feedAccesses text ++ [commandAccess 0x03#8 0x0A#8]

/-- CRC_STR "text" (30_encoding R105). -/
def crcStrAccesses (text : List Byte) : List Access :=
  commandAccess 0x05#8 0x00#8 :: text.map (commandAccess 0x06#8)

/-- RUN start, size (30_encoding R105). -/
def runAccesses (start size : Word) : List Access :=
  [writeAccess 0x08#6 start, writeAccess 0x0C#6 size, commandAccess 0x02#8 0x00#8]

/-- The output file the host owes: the window's bytes in DONE, none in any other state (43_control R212, R213). -/
def outputFile (s : State) : Option (List Byte) :=
  match s.runState with
  | .done => some (s.wbuf.bytes s.actSize.toNat)
  | .idle => none
  | .running => none
  | .failed => none

/-- The length the host reports (43_control R214). -/
def reportedLength (s : State) : Nat :=
  s.actSize.toNat

/-- An uppercase hexadecimal digit as an ASCII byte. -/
def upperDigit (d : BitVec 4) : Byte :=
  if d < 10#4 then 0x30#8 + d.setWidth 8 else 0x37#8 + d.setWidth 8

/-- The checksum the host prints: `0x` and eight uppercase digits, the most significant first (43_control R215). -/
def checksumText (s : State) : List Byte :=
  [0x30#8, 0x78#8] ++ [28, 24, 20, 16, 12, 8, 4, 0].map fun low => upperDigit (s.checksum.extractLsb' low 4)

end Sys2Proof.Machine
end

