-- ==== Sys2Proof/Safety.lean ====
section
/-! DEFINITION. What claims are stated in: the invariants of 10_state R50 with what they need to carry themselves, the
condition under which CHAR finds its payload byte, agreement on all a host can ever see, and feeding characters. -/

namespace Sys2Proof.Machine

/-- The invariants every reachable state meets (10_state R50), but for ERR_LINE's, which ends where ERR_COUNT wraps.
`runningClean`, `lineClosed`, `startPos`, `skipPos`, `posBound`, `erasedUntilHit`, `doneValid` and the four about the
buffers are what other rules say (R29, R151, R45, R177, R25, R47, R48). -/
structure Inv (s : State) : Prop where
  highBaseLow    : s.highBase.extractLsb' 0 16 = 0x0000#16
  runningWindow  : s.runState = .running → s.bufValid = true ∧ 1 ≤ s.actSize.toNat ∧
    s.actSize.toNat ≤ Config.maxWindow ∧ s.actStart.toNat + s.actSize.toNat ≤ 2 ^ 32
  runningClean   : s.runState = .running → s.fatal = .noError
  doneChecksum   : s.runState = .done → s.anyHit = true ∧ s.fatal = .noError ∧
    s.checksum = crc32 (s.wbuf.bytes s.actSize.toNat)
  doneValid      : s.runState = .done → s.bufValid = true
  failedFatal    : s.runState = .failed → s.fatal ≠ .noError
  payPos         : s.ph = .pay → 8 ≤ s.pos.toNat ∧ s.pos.toNat < 8 + 2 * s.bc.toNat
  trlPos         : s.ph = .trl → s.pos.toNat = 8 + 2 * s.bc.toNat
  hdrPos         : s.ph = .hdr → s.pos.toNat < 8
  startPos       : s.ph = .ls → s.pos = 0#10
  skipPos        : s.ph = .skip → s.pos = 0#10
  posBound       : s.pos.toNat ≤ 518
  lineClosed     : s.runState ≠ .running → s.ph = .ls
  erasedUntilHit : s.bufValid = true → s.anyHit = false →
    ∀ i, i < s.actSize.toNat → s.wbuf.read i = Config.eraseValue
  pbufForm       : Memory.wf s.pbuf
  pbufBound      : ∀ c ∈ s.pbuf, c.1 < Config.payloadCapacity
  wbufForm       : Memory.wf s.wbuf
  wbufBound      : ∀ c ∈ s.wbuf, c.1 < Config.maxWindow

/-- CHAR finds a byte of PBUF for a payload digit: phase PAY holds a position PBUF has a byte for (10_state R47). -/
def PayloadReady (s : State) : Prop :=
  s.ph = .pay → payloadIndex s.pos < Config.payloadCapacity

/-- Two states that differ at most in buffer bytes no rule lets a host see: PBUF bytes not written in the current
line, WBUF bytes past ACT_SIZE or under BUF_VALID = 0 (70_reset R262, 93 U13 and U14). -/
structure SameVisible (s t : State) : Prop where
  rest     : t = { s with pbuf := t.pbuf, wbuf := t.wbuf }
  window   : s.bufValid = true → ∀ i, i < s.actSize.toNat → s.wbuf.read i = t.wbuf.read i
  payload  : s.ph = .pay → ∀ j, j < (s.pos.toNat - 7) / 2 → s.pbuf.read j = t.pbuf.read j
  complete : s.ph = .trl → ∀ j, j < s.bc.toNat → s.pbuf.read j = t.pbuf.read j

/-- Feeding characters one CHAR each, in order, until one stops. -/
def feedChars : List Byte → State → Host.Outcome State Fault Refusal
  | [], s => .next s
  | c :: cs, s =>
    match exec (.char c) s with
    | .next t => feedChars cs t
    | .fault f => .fault f
    | .refused r => .refused r

/-- The command a write to CMD carries, if the access is one. -/
def commandOf (a : Access) : Option Command :=
  if a.width = .w32 ∧ a.dir = .write ∧ a.offset = 0 then some (decodeCommand a.data) else none

end Sys2Proof.Machine
end

