-- ==== Sys2Proof/Certificates/Slice0/Obligations.lean ====
section
/-! DEFINITION. The statements for the provers, from the spec's numbered rules. `Sys2Proof.Claims` holds the few
expressions several of them share, written out from the rules. -/

open Sys2Proof Sys2Proof.Machine

/-- The state a finish leaves (42_window R176 to R178): with no hit FAILED with EMPTY and nothing else, with a hit DONE
with the checksum of the window's bytes in index order. -/
def Sys2Proof.Claims.finished (s : State) : State :=
  if s.anyHit = true then
    { s with
      crcState := crcFeed 0xFFFFFFFF#32 (s.wbuf.bytes s.actSize.toNat)
      checksum := crc32 (s.wbuf.bytes s.actSize.toNat)
      runState := .done }
  else { s with fatal := .empty, runState := .failed }

/-- What a START that rejects its window leaves (42_window R170 to R173, 60_exceptions R234). -/
def Sys2Proof.Claims.rejected (s : State) (code : FatalCode) : State :=
  { s with
    checksum := 0#32, highBase := 0#32, lineCount := 0#32, lineOutcome := .noLine, lineRtype := 0#8
    errCount := 0#32, errLine := 0#32, ph := .ls, pos := 0#10, bc := 0#8, off := 0#16, rtype := 0#8
    anyHit := false, termSeen := false, bufValid := false, fatal := code, runState := .failed }

/-- The target address of payload byte i, as a natural number below 2^32 (30_encoding R103). -/
def Sys2Proof.Claims.byteAddress (s : State) (i : Nat) : Nat :=
  (s.highBase.toNat + s.off.toNat + i) % 2 ^ 32

/-- The address is in the window, whose end is not reduced (20_memory R66). -/
def Sys2Proof.Claims.windowHolds (s : State) (a : Nat) : Prop :=
  s.actStart.toNat ≤ a ∧ a < s.actStart.toNat + s.actSize.toNat

/-- The access at the head of the host's list is the command `c`. -/
def Sys2Proof.Claims.nextIs (s : State) (c : Command) : Prop :=
  ∃ a rest, s.pending = a :: rest ∧ commandOf a = some c

open Sys2Proof.Claims

-- Encoding.

/-- 30_encoding R90 to R108: every bit of an encoding is kept, for all 33 instructions and every operand. -/
def Obligations.DecodeEncodeRoundTrip : Prop :=
  ∀ i : Instr, i.wellFormed = true → decode (encode i) = .ok i

/-- 30_encoding R108, the other direction: no two command words and no two type codes stand for the same thing. -/
def Obligations.CommandAndTypeWordsKeepEveryBit : Prop :=
  (∀ w : Word, encode (commandInstr (decodeCommand w)) = .command w)
    ∧ (∀ t : Byte, encode (recordInstr t) = .recordType t)

/-- 30_encoding R93: which words are illegal, and that writing one is a command error and nothing else. -/
def Obligations.IllegalCommandWordsAreCommandErrors : Prop :=
  ∀ (w : Word) (s : State),
    (decodeCommand w = .illegal w ↔
      7 ≤ (w.extractLsb' 24 8).toNat ∨ w.extractLsb' 8 16 ≠ 0#16
        ∨ (w.extractLsb' 0 8 ≠ 0#8 ∧ w.extractLsb' 24 8 ≠ 0x03#8 ∧ w.extractLsb' 24 8 ≠ 0x06#8))
      ∧ (decodeCommand w = .illegal w → exec (.wrCmd w) s = .next { s with cmdErr := true })
      ∧ exec (.illegal w) s = .next { s with cmdErr := true }

/-- 30_encoding R107, 20_memory R61: every read offset and every write offset has its row. -/
def Obligations.BusOffsetsHaveTheirRows : Prop :=
  ((List.range 16).map fun k => decodeAccess (readAccess (BitVec.ofNat 6 (4 * k)))) =
      [.ok .rdCmd, .ok .rdStatus, .ok .rdWinStart, .ok .rdWinSize, .ok .rdHighBase, .ok .rdCrcState,
       .ok .rdCrcResult, .ok .rdChecksum, .ok .rdLineCount, .ok .rdLineResult, .ok .rdErrCount, .ok .rdErrLine,
       .ok .rdBufIndex, .ok .rdBufData, .ok .rdParseState, .ok .rdMaxWindow]
    ∧ ∀ w : Word,
      decodeAccess (writeAccess 0x00#6 w) = .ok (.wrCmd w)
        ∧ decodeAccess (writeAccess 0x08#6 w) = .ok (.wrWinStart w)
        ∧ decodeAccess (writeAccess 0x0C#6 w) = .ok (.wrWinSize w)
        ∧ decodeAccess (writeAccess 0x30#6 w) = .ok (.wrBufIndex w)
        ∧ ∀ o ∈ [0x04#6, 0x10#6, 0x14#6, 0x18#6, 0x1C#6, 0x20#6, 0x24#6, 0x28#6, 0x2C#6, 0x34#6, 0x38#6, 0x3C#6],
            decodeAccess (writeAccess o w) = .ok (.wrIgnored o w)

/-- 30_encoding R92, R100: a word of each command and of each record kind, written out from the tables. -/
def Obligations.SampleWordsDecode : Prop :=
  decode (.command 0x00000000#32) = .ok .nop
    ∧ decode (.command 0x01000000#32) = .ok .reset
    ∧ decode (.command 0x02000000#32) = .ok .start
    ∧ decode (.command 0x0300003A#32) = .ok (.char 0x3A#8)
    ∧ decode (.command 0x04000000#32) = .ok .eoi
    ∧ decode (.command 0x05000000#32) = .ok .crcInit
    ∧ decode (.command 0x06000031#32) = .ok (.crcByte 0x31#8)
    ∧ decode (.command 0x04FF0000#32) = .ok (.illegal 0x04FF0000#32)
    ∧ decode (.recordType 0x00#8) = .ok .recData
    ∧ decode (.recordType 0x01#8) = .ok .recEof
    ∧ decode (.recordType 0x04#8) = .ok .recEla
    ∧ decode (.recordType 0x02#8) = .ok (.recIgnored 0x02#8)

/-- 30_encoding R95: exactly the digits 0 to 9, A to F and a to f are hex digits, and their values. -/
def Obligations.HexDigitValues : Prop :=
  ∀ c : Byte,
    (isHex c = true ↔ (0x30 ≤ c.toNat ∧ c.toNat ≤ 0x39) ∨ (0x41 ≤ c.toNat ∧ c.toNat ≤ 0x46)
      ∨ (0x61 ≤ c.toNat ∧ c.toNat ≤ 0x66))
      ∧ (0x30 ≤ c.toNat → c.toNat ≤ 0x39 → (hexVal c).toNat = c.toNat - 0x30)
      ∧ (0x41 ≤ c.toNat → c.toNat ≤ 0x46 → (hexVal c).toNat = c.toNat - 0x41 + 10)
      ∧ (0x61 ≤ c.toNat → c.toNat ≤ 0x66 → (hexVal c).toNat = c.toNat - 0x61 + 10)

-- The step and the bus.

/-- 00_scope R7, 43_control R200: a step takes the host's next access and runs the instruction it decodes to. -/
def Obligations.StepRunsDecodedInstruction : Prop :=
  ∀ (s : State) (a : Access) (rest : List Access) (i : Instr),
    s.pending = a :: rest → decodeAccess a = .ok i → step s = exec i { s with pending := rest }

/-- 60_exceptions R250 ("idle between host accesses and keeps all state"); that a step may pass with no access is the
model's choice, assumption log 1. -/
def Obligations.StepIdlesBetweenAccesses : Prop :=
  ∀ s : State, s.pending = [] → step s = .next s

/-- 20_memory R62: exactly the 32-bit accesses at multiples of 4 from 0x00 to 0x3C are accesses; any other is refused. -/
def Obligations.OnlyAlignedWordAccessesHaveAStep : Prop :=
  ∀ (s : State) (a : Access) (rest : List Access), s.pending = a :: rest →
    ((∃ why, step s = .refused (.notAnAccess why)) ↔
      ¬ (a.width = .w32 ∧ 0 ≤ a.offset ∧ a.offset ≤ 0x3C ∧ a.offset % 4 = 0))

/-- Every instruction answers a next state, in every state in which CHAR finds its payload byte (10_state R47; that premise
is the model's own, assumption log 8), and none is ever refused. -/
def Obligations.EveryInstructionAnswers : Prop :=
  ∀ (i : Instr) (s : State),
    ((s.runState = .running → PayloadReady s) → ∃ t, exec i s = .next t) ∧ ∀ r, exec i s ≠ .refused r

/-- 10_state R47: CHAR stops exactly on a payload digit for which PBUF has no byte (assumption log 8). -/
def Obligations.CharFaultsWithoutPayloadByte : Prop :=
  ∀ (c : Byte) (s : State) (j : Nat),
    exec (.char c) s = .fault (.noPayloadByte j) ↔
      s.runState = .running ∧ s.ph = .pay ∧ isHex c = true ∧ payloadIndex s.pos = j ∧ 255 ≤ j

-- Reset and invariants.

/-- 70_reset R261: every register and internal element the table gives a value, and the registers with no storage as they
read. -/
def Obligations.ResetValues : Prop :=
  let s := State.reset
  statusWord s = 0#32 ∧ s.runState = .idle ∧ s.bufValid = false ∧ s.anyHit = false ∧ s.termSeen = false
    ∧ s.cmdErr = false ∧ s.fatal = .noError ∧ s.winStart = 0#32 ∧ s.winSize = 0#32 ∧ s.highBase = 0#32
    ∧ s.crcState = 0xFFFFFFFF#32 ∧ s.checksum = 0#32 ∧ s.lineCount = 0#32 ∧ lineResultWord s = 0#32
    ∧ s.errCount = 0#32 ∧ s.errLine = 0#32 ∧ s.bufIndex = 0#32 ∧ s.actStart = 0#32 ∧ s.actSize = 0#32
    ∧ s.ph = .ls ∧ s.pos = 0#10 ∧ s.bc = 0#8 ∧ s.off = 0#16 ∧ s.rtype = 0#8
    ∧ crcResultWord s = 0#32 ∧ bufDataWord s = 0x100#32 ∧ parseStateWord s = 0#32
    ∧ maxWindowWord.toNat = Config.maxWindow ∧ exec .rdCmd s = .next { s with readData := 0#32 }

/-- 10_state R50 at reset. -/
def Obligations.ResetMeetsInvariants : Prop :=
  Inv State.reset

/-- 10_state R50: every step from a state that meets the invariants leads to one that meets them. -/
def Obligations.StepKeepsInvariants : Prop :=
  ∀ s t : State, Inv s → step s = .next t → Inv t

/-- 60_exceptions R230 ("The block raises no trap"): no step faults from a state that meets the invariants. -/
def Obligations.InvariantStatesNeverFault : Prop :=
  ∀ s : State, Inv s → ∀ f, step s ≠ .fault f

/-- 70_reset R262, 93 U13 and U14: two states that differ only in buffer bytes no rule shows a host answer every next
access alike, and go on differing only there. So nothing rests on what the unspecified buffers read as at reset
(assumption log 6 and 7). -/
def Obligations.UnspecifiedBufferBytesNeverObservable : Prop :=
  ∀ s t : State, Inv s → Inv t → SameVisible s t →
    (∃ s' t', step s = .next s' ∧ step t = .next t' ∧ SameVisible s' t')
      ∨ ∃ r, step s = .refused r ∧ step t = .refused r

/-- 10_state R50, R39: ERR_COUNT = 0 implies ERR_LINE = 0, kept by every step until ERR_COUNT wraps. -/
def Obligations.NoErrorsNoErrorLine : Prop :=
  ∀ s t : State, (s.errCount = 0#32 → s.errLine = 0#32) → s.errCount ≠ 0xFFFFFFFF#32 → step s = .next t →
    (t.errCount = 0#32 → t.errLine = 0#32)

-- Reads.

/-- 43_control R207, R209: the sixteen reads answer their register's value and change nothing of the block. -/
def Obligations.ReadsAnswerTheirRegisters : Prop :=
  ∀ s : State,
    exec .rdCmd s = .next { s with readData := 0#32 }
      ∧ exec .rdStatus s = .next { s with
          readData := 0#20 ++ fatalCode s.fatal ++ 0#2 ++ BitVec.ofBool s.cmdErr ++ BitVec.ofBool s.termSeen
            ++ BitVec.ofBool s.anyHit ++ BitVec.ofBool s.bufValid ++ runStateCode s.runState }
      ∧ exec .rdWinStart s = .next { s with readData := s.winStart }
      ∧ exec .rdWinSize s = .next { s with readData := s.winSize }
      ∧ exec .rdHighBase s = .next { s with readData := s.highBase }
      ∧ exec .rdCrcState s = .next { s with readData := s.crcState }
      ∧ exec .rdCrcResult s = .next { s with readData := s.crcState ^^^ 0xFFFFFFFF#32 }
      ∧ exec .rdChecksum s = .next { s with readData := s.checksum }
      ∧ exec .rdLineCount s = .next { s with readData := s.lineCount }
      ∧ exec .rdLineResult s = .next { s with readData := 0#16 ++ s.lineRtype ++ 0#4 ++ lineOutcomeCode s.lineOutcome }
      ∧ exec .rdErrCount s = .next { s with readData := s.errCount }
      ∧ exec .rdErrLine s = .next { s with readData := s.errLine }
      ∧ exec .rdBufIndex s = .next { s with readData := s.bufIndex }
      ∧ exec .rdBufData s = .next { s with
          readData := if s.bufValid = true ∧ s.bufIndex.toNat < s.actSize.toNat then
            (s.wbuf.read s.bufIndex.toNat).setWidth 32 else 0x100#32 }
      ∧ exec .rdParseState s = .next { s with readData := 0#6 ++ s.pos ++ 0#13 ++ phaseCode s.ph }
      ∧ exec .rdMaxWindow s = .next { s with readData := BitVec.ofNat 32 Config.maxWindow }

/-- 10_state R23 to R29: STATUS by its bits and the codes of its fields, reserved bits 0. -/
def Obligations.StatusReadsByBits : Prop :=
  ∀ s : State, ∃ t, exec .rdStatus s = .next t ∧
    (t.readData.extractLsb' 0 2).toNat =
        (match s.runState with | .idle => 0 | .running => 1 | .done => 2 | .failed => 3)
      ∧ t.readData.getLsbD 2 = s.bufValid ∧ t.readData.getLsbD 3 = s.anyHit ∧ t.readData.getLsbD 4 = s.termSeen
      ∧ t.readData.getLsbD 5 = s.cmdErr ∧ t.readData.extractLsb' 6 2 = 0#2
      ∧ (t.readData.extractLsb' 8 4).toNat =
        (match s.fatal with | .noError => 0 | .winZero => 1 | .winOverflow => 2 | .winTooLarge => 3 | .empty => 4)
      ∧ t.readData.extractLsb' 12 20 = 0#20 ∧ t = { s with readData := t.readData }

/-- 10_state R37, R42, R45: LINE_RESULT and PARSE_STATE by their bits and codes, reserved bits 0. -/
def Obligations.LineResultAndParseStateReadByBits : Prop :=
  ∀ s : State,
    (∃ t, exec .rdLineResult s = .next t ∧
      (t.readData.extractLsb' 0 4).toNat =
          (match s.lineOutcome with
            | .noLine => 0 | .skipped => 1 | .data => 2 | .eof => 3 | .ela => 4 | .ignored => 5
            | .error .badHex => 8 | .error .truncated => 9 | .error .elaShort => 10)
        ∧ t.readData.extractLsb' 4 4 = 0#4 ∧ t.readData.extractLsb' 8 8 = s.lineRtype
        ∧ t.readData.extractLsb' 16 16 = 0#16 ∧ t = { s with readData := t.readData })
      ∧ ∃ t, exec .rdParseState s = .next t ∧
        (t.readData.extractLsb' 0 3).toNat =
            (match s.ph with | .ls => 0 | .skip => 1 | .hdr => 2 | .pay => 3 | .trl => 4 | .bad => 5)
          ∧ t.readData.extractLsb' 3 13 = 0#13 ∧ t.readData.extractLsb' 16 10 = s.pos
          ∧ t.readData.extractLsb' 26 6 = 0#6 ∧ t = { s with readData := t.readData }

/-- 43_control R208, 10_state R41: BUF_DATA's byte, and that 0x100 is read exactly where there is none. -/
def Obligations.BufDataReads : Prop :=
  ∀ s : State, ∃ t, exec .rdBufData s = .next t ∧ t = { s with readData := t.readData }
    ∧ (s.bufValid = true → s.bufIndex.toNat < s.actSize.toNat →
        t.readData = (s.wbuf.read s.bufIndex.toNat).setWidth 32)
    ∧ (t.readData = 0x100#32 ↔ ¬ (s.bufValid = true ∧ s.bufIndex.toNat < s.actSize.toNat))

/-- 10_state R43, 00_scope R10: MAX_WINDOW reads as the parameter, 1 to 2^32 - 1, and changes nothing. -/
def Obligations.MaxWindowReadsTheParameter : Prop :=
  ∀ s : State, ∃ t, exec .rdMaxWindow s = .next t ∧ t = { s with readData := t.readData }
    ∧ t.readData.toNat = Config.maxWindow ∧ 1 ≤ t.readData.toNat ∧ t.readData.toNat ≤ 2 ^ 32 - 1

/-- 20_memory R64: no read has a side effect; only the answer the host gets changes. -/
def Obligations.ReadsHaveNoSideEffect : Prop :=
  ∀ (s t : State) (a : Access) (rest : List Access), s.pending = a :: rest → a.dir = .read → step s = .next t →
    t = { s with pending := rest, readData := t.readData }

-- Writes and the control commands.

/-- 43_control R203 to R206: the three stores and the ignored writes, in every state and for every word. -/
def Obligations.RegisterWrites : Prop :=
  ∀ (s : State) (w : Word) (o : BitVec 6),
    exec (.wrWinStart w) s = .next { s with winStart := w }
      ∧ exec (.wrWinSize w) s = .next { s with winSize := w }
      ∧ exec (.wrBufIndex w) s = .next { s with bufIndex := w }
      ∧ exec (.wrIgnored o w) s = .next s

/-- 43_control R200: a write to CMD does all its command does, inside the access; and it completes in every state in which
CHAR finds its payload byte (10_state R47; that premise is the model's own, assumption log 8). -/
def Obligations.WrCmdRunsItsCommand : Prop :=
  ∀ (w : Word) (s : State),
    exec (.wrCmd w) s = exec (commandInstr (decodeCommand w)) s
      ∧ ((s.runState = .running → PayloadReady s) →
          ∃ t, exec (.wrCmd w) s = .next t ∧ exec (commandInstr (decodeCommand w)) s = .next t)

/-- 43_control R201: NOP changes nothing, and 0x00000000 is the only word that is NOP: with OP = 0x00 any other is
ILLEGAL. -/
def Obligations.NopChangesNothing : Prop :=
  (∀ s : State, exec .nop s = .next s)
    ∧ ∀ w : Word, (decodeCommand w = .nop ↔ w = 0#32)
      ∧ (w.extractLsb' 24 8 = 0x00#8 → w ≠ 0#32 → decodeCommand w = .illegal w)

/-- 43_control R202, 70_reset R260: RESET gives every element its reset value in every state; the host's accesses to come
and its last answer stay (the model's choice, assumption log 14). -/
def Obligations.ResetCommandResets : Prop :=
  decodeCommand 0x01000000#32 = .reset ∧
    ∀ s : State, ∃ t, exec .reset s = .next t ∧
      t = { s with
        runState := .idle, bufValid := false, anyHit := false, termSeen := false, cmdErr := false, fatal := .noError
        winStart := 0#32, winSize := 0#32, highBase := 0#32, crcState := 0xFFFFFFFF#32, checksum := 0#32
        lineCount := 0#32, lineOutcome := .noLine, lineRtype := 0#8, errCount := 0#32, errLine := 0#32
        bufIndex := 0#32, actStart := 0#32, actSize := 0#32, ph := .ls, pos := 0#10, bc := 0#8, off := 0#16
        rtype := 0#8, pbuf := t.pbuf, wbuf := t.wbuf }

-- START.

/-- 42_window R170 to R173, 60_exceptions R243: the three window errors in their fixed order, with all START clears and
all it leaves. The third is said of START with a buffer of any capacity, and START is START with MAX_WINDOW. -/
def Obligations.StartRejectsBadWindows : Prop :=
  ∀ s : State,
    (s.winSize = 0#32 → exec .start s = .next (rejected s .winZero))
      ∧ (s.winSize ≠ 0#32 → 2 ^ 32 < s.winStart.toNat + s.winSize.toNat →
          exec .start s = .next (rejected s .winOverflow))
      ∧ (∀ capacity, s.winSize ≠ 0#32 → s.winStart.toNat + s.winSize.toNat ≤ 2 ^ 32 →
          capacity < s.winSize.toNat → startRun capacity s = rejected s .winTooLarge)
      ∧ exec .start s = .next (startRun Config.maxWindow s)

/-- 42_window R170, R174: a START whose window is valid runs, with all it clears and leaves and the window filled with
0xFF. -/
def Obligations.StartAcceptsGoodWindows : Prop :=
  ∀ s : State, s.winSize ≠ 0#32 → s.winStart.toNat + s.winSize.toNat ≤ 2 ^ 32 → s.winSize.toNat ≤ Config.maxWindow →
    ∃ t, exec .start s = .next t
      ∧ t = { s with
          checksum := 0#32, highBase := 0#32, lineCount := 0#32, lineOutcome := .noLine, lineRtype := 0#8
          errCount := 0#32, errLine := 0#32, ph := .ls, pos := 0#10, bc := 0#8, off := 0#16, rtype := 0#8
          anyHit := false, termSeen := false, fatal := .noError
          actStart := s.winStart, actSize := s.winSize, bufValid := true, runState := .running, wbuf := t.wbuf }
      ∧ (∀ i, i < s.winSize.toNat → t.wbuf.read i = 0xFF#8)
      ∧ ∀ i, s.winSize.toNat ≤ i → t.wbuf.read i = s.wbuf.read i

-- CHAR.

/-- 40_record R121, R122: CHAR in IDLE is a command error and nothing else; in DONE and FAILED it is ignored. -/
def Obligations.CharOutsideARun : Prop :=
  ∀ (c : Byte) (s : State),
    (s.runState = .idle → exec (.char c) s = .next { s with cmdErr := true })
      ∧ (s.runState = .done ∨ s.runState = .failed → exec (.char c) s = .next s)

/-- 40_record R123, R126: CR in a run, and any character but LF in SKIP, TRL and BAD, change nothing. -/
def Obligations.CharIgnoredInARun : Prop :=
  ∀ (c : Byte) (s : State), s.runState = .running →
    exec (.char 0x0D#8) s = .next s
      ∧ (c ≠ 0x0A#8 → s.ph = .skip ∨ s.ph = .trl ∨ s.ph = .bad → exec (.char c) s = .next s)

/-- 40_record R125: the first character of a line. -/
def Obligations.CharStartsALine : Prop :=
  ∀ (c : Byte) (s : State), s.runState = .running → s.ph = .ls → c ≠ 0x0D#8 → c ≠ 0x0A#8 →
    (c = 0x3A#8 → exec (.char c) s =
        .next { s with ph := .hdr, pos := 0#10, bc := 0#8, off := 0#16, rtype := 0#8 })
      ∧ (c ≠ 0x3A#8 → exec (.char c) s = .next { s with ph := .skip })

/-- 40_record R127: a character of the header, the fields as numbers. -/
def Obligations.CharReadsHeaderDigits : Prop :=
  ∀ (c : Byte) (s : State), s.runState = .running → s.ph = .hdr → s.pos.toNat ≤ 7 → c ≠ 0x0D#8 → c ≠ 0x0A#8 →
    (isHex c = false → exec (.char c) s = .next { s with ph := .bad })
      ∧ (isHex c = true → ∃ t, exec (.char c) s = .next t
          ∧ t = { s with ph := t.ph, pos := t.pos, bc := t.bc, off := t.off, rtype := t.rtype }
          ∧ t.pos.toNat = s.pos.toNat + 1
          ∧ t.bc.toNat = (if s.pos.toNat ≤ 1 then (s.bc.toNat * 16 + (hexVal c).toNat) % 256 else s.bc.toNat)
          ∧ t.off.toNat = (if 2 ≤ s.pos.toNat ∧ s.pos.toNat ≤ 5 then (s.off.toNat * 16 + (hexVal c).toNat) % 65536
              else s.off.toNat)
          ∧ t.rtype.toNat = (if 6 ≤ s.pos.toNat then (s.rtype.toNat * 16 + (hexVal c).toNat) % 256
              else s.rtype.toNat)
          ∧ t.ph = (if s.pos.toNat = 7 then (if s.bc = 0#8 then .trl else .pay) else .hdr))

/-- 40_record R128: a character of the payload. -/
def Obligations.CharReadsPayloadDigits : Prop :=
  ∀ (c : Byte) (s : State), s.runState = .running → s.ph = .pay → 8 ≤ s.pos.toNat →
    s.pos.toNat < 8 + 2 * s.bc.toNat → Memory.wf s.pbuf → c ≠ 0x0D#8 → c ≠ 0x0A#8 →
    (isHex c = false → exec (.char c) s = .next { s with ph := .bad })
      ∧ (isHex c = true → ∃ t, exec (.char c) s = .next t
          ∧ t = { s with ph := t.ph, pos := t.pos, pbuf := t.pbuf }
          ∧ t.pos.toNat = s.pos.toNat + 1
          ∧ t.ph = (if s.pos.toNat + 1 = 8 + 2 * s.bc.toNat then .trl else .pay)
          ∧ ∀ j, t.pbuf.read j =
              if j = (s.pos.toNat - 8) / 2 then
                (if (s.pos.toNat - 8) % 2 = 0 then hexVal c ++ 0#4
                  else (s.pbuf.read j).extractLsb' 4 4 ++ hexVal c)
              else s.pbuf.read j)

/-- 40_record R124, 41_memory R151, 60_exceptions R233, R236, R237: LF where no record is complete. -/
def Obligations.LineEndsWithoutARecord : Prop :=
  ∀ s : State, s.runState = .running →
    (s.ph = .ls ∨ s.ph = .skip → exec (.char 0x0A#8) s = .next { s with
        lineCount := s.lineCount + 1#32, lineOutcome := .skipped, lineRtype := 0#8, ph := .ls, pos := 0#10 })
      ∧ (s.ph = .hdr ∨ s.ph = .pay → exec (.char 0x0A#8) s = .next { s with
          lineCount := s.lineCount + 1#32, lineOutcome := .error .truncated, lineRtype := 0#8
          errCount := s.errCount + 1#32, errLine := s.lineCount + 1#32, ph := .ls, pos := 0#10 })
      ∧ (s.ph = .bad → exec (.char 0x0A#8) s = .next { s with
          lineCount := s.lineCount + 1#32, lineOutcome := .error .badHex, lineRtype := 0#8
          errCount := s.errCount + 1#32, errLine := s.lineCount + 1#32, ph := .ls, pos := 0#10 })

/-- 41_memory R151, R152: LF on a complete record commits it by its type, with the line already counted. -/
def Obligations.LineEndCommitsTheRecord : Prop :=
  ∀ s : State, s.runState = .running → s.ph = .trl →
    ∃ t, exec (recordInstr s.rtype) { s with lineCount := s.lineCount + 1#32 } = .next t
      ∧ exec (.char 0x0A#8) s = .next { t with ph := .ls, pos := 0#10 }

/-- 40_record R130, 20_memory R72: but for LF, a CHAR writes only the parser's own elements (and CMD_ERR in IDLE). -/
def Obligations.CharWritesOnlyTheParser : Prop :=
  ∀ (c : Byte) (s t : State), c ≠ 0x0A#8 → exec (.char c) s = .next t →
    t = { s with
          ph := t.ph, pos := t.pos, bc := t.bc, off := t.off, rtype := t.rtype, pbuf := t.pbuf
          cmdErr := t.cmdErr }
      ∧ (s.runState ≠ .idle → t.cmdErr = s.cmdErr)

/-- 30_encoding R96, R97, 40_record R129, R132: the marker, eight header digits and twice as many payload digits as the
byte count leave the record complete, every field and payload byte as R97 assembles it, and nothing else changed, PBUF past
the payload included. -/
def Obligations.WholeRecordIsParsed : Prop :=
  ∀ (s : State) (h0 h1 h2 h3 h4 h5 h6 h7 : Byte) (p : List Byte),
    s.runState = .running → s.ph = .ls → Memory.wf s.pbuf →
    (∀ c ∈ [h0, h1, h2, h3, h4, h5, h6, h7] ++ p, isHex c = true) →
    p.length = 2 * ((hexVal h0).toNat * 16 + (hexVal h1).toNat) →
    ∃ t, feedChars ([0x3A#8, h0, h1, h2, h3, h4, h5, h6, h7] ++ p) s = .next t
      ∧ t = { s with
          ph := .trl, pos := BitVec.ofNat 10 (8 + p.length), bc := hexVal h0 ++ hexVal h1
          off := hexVal h2 ++ hexVal h3 ++ hexVal h4 ++ hexVal h5, rtype := hexVal h6 ++ hexVal h7, pbuf := t.pbuf }
      ∧ (∀ j, 2 * j < p.length → t.pbuf.read j = hexVal (p.getD (2 * j) 0#8) ++ hexVal (p.getD (2 * j + 1) 0#8))
      ∧ ∀ j, p.length ≤ 2 * j → t.pbuf.read j = s.pbuf.read j

-- The record kinds.

/-- 41_memory R153, R161, 30_encoding R103, 20_memory R66: a Data record's in-window bytes go to their place and nothing
else changes; ANY_HIT is set exactly where one does. -/
def Obligations.DataRecordPlacesItsBytes : Prop :=
  ∀ s : State, Memory.wf s.wbuf →
    ∃ t, exec .recData s = .next t
      ∧ t = { s with wbuf := t.wbuf, anyHit := t.anyHit, lineOutcome := .data, lineRtype := 0#8 }
      ∧ (t.anyHit = true ↔ s.anyHit = true ∨ ∃ i, i < s.bc.toNat ∧ windowHolds s (byteAddress s i))
      ∧ (∀ i, i < s.bc.toNat → windowHolds s (byteAddress s i) →
          t.wbuf.read (byteAddress s i - s.actStart.toNat) = s.pbuf.read i)
      ∧ ∀ k, (∀ i, i < s.bc.toNat → windowHolds s (byteAddress s i) → k ≠ byteAddress s i - s.actStart.toNat) →
          t.wbuf.read k = s.wbuf.read k

/-- 41_memory R154, 42_window R176 to R178: a Terminator ends the run by finish. -/
def Obligations.TerminatorEndsTheRun : Prop :=
  ∀ s : State, exec .recEof s =
    .next (finished { s with lineOutcome := .eof, lineRtype := 0x01#8, termSeen := true })

/-- 41_memory R155, R156, 30_encoding R102: the Extended-High-Address record, and with a payload of 0 or 1 bytes the line
error ELA_SHORT that leaves HIGH_BASE. -/
def Obligations.ElaRecordLoadsTheHighBase : Prop :=
  ∀ s : State, s.rtype = 0x04#8 →
    (2 ≤ s.bc.toNat → ∃ t, exec .recEla s = .next t
        ∧ t = { s with highBase := t.highBase, lineOutcome := .ela, lineRtype := 0x04#8 }
        ∧ t.highBase.toNat = ((s.pbuf.read 0).toNat * 256 + (s.pbuf.read 1).toNat) * 65536)
      ∧ (s.bc.toNat < 2 → exec .recEla s = .next { s with
          lineOutcome := .error .elaShort, lineRtype := 0x04#8, errCount := s.errCount + 1#32, errLine := s.lineCount })

/-- 41_memory R157: a record of any other type only reports IGNORED. -/
def Obligations.IgnoredRecordOnlyReports : Prop :=
  ∀ (s : State) (t : Byte), exec (.recIgnored t) s = .next { s with lineOutcome := .ignored, lineRtype := t }

-- EOI and the CRC engine.

/-- 42_window R175 to R178: EOI in IDLE is a command error, in DONE and FAILED it is ignored; in a run it ends a pending
line as LF would, then finishes unless that line ended the run. -/
def Obligations.EoiByRunState : Prop :=
  ∀ s : State,
    (s.runState = .idle → exec .eoi s = .next { s with cmdErr := true })
      ∧ (s.runState = .done ∨ s.runState = .failed → exec .eoi s = .next s)
      ∧ (s.runState = .running → s.ph = .ls → exec .eoi s = .next (finished s))
      ∧ (s.runState = .running → s.ph ≠ .ls → ∃ u, exec (.char 0x0A#8) s = .next u
          ∧ exec .eoi s = .next (if u.runState = .running then finished u else u))

/-- 42_window R182, R183, 20_memory R73: the standalone CRC commands write CRC_STATE and nothing else, in every state. -/
def Obligations.CrcCommandsWriteOnlyTheEngine : Prop :=
  ∀ (s : State) (b : Byte),
    exec .crcInit s = .next { s with crcState := 0xFFFFFFFF#32 }
      ∧ exec (.crcByte b) s = .next { s with crcState := crcUpdate s.crcState b }

/-- 42_window R180: crc_update is eight shifts of the register with the byte XORed into its low 8 bits. -/
def Obligations.CrcUpdateIsEightShifts : Prop :=
  ∀ (r : Word) (b : Byte),
    crcUpdate r b =
      (fun v : Word => if v.getLsbD 0 = true then (v >>> 1) ^^^ 0xEDB88320#32 else v >>> 1)^[8] (r ^^^ b.setWidth 32)

/-- 42_window R185: the table form equals the bitwise form for every register and byte. -/
def Obligations.CrcTableFormIsEqual : Prop :=
  ∀ (r : Word) (b : Byte),
    crcUpdate r b = (r >>> 8) ^^^ crcUpdate 0#32 ((r ^^^ b.setWidth 32).extractLsb' 0 8)

-- Rules over the whole machine.

/-- 10_state R24, 60_exceptions R246, 42_window R186: the only steps that change the run state are START, RESET, and in a
run the LF or EOI that ends it. -/
def Obligations.RunStateWriters : Prop :=
  ∀ s t : State, step s = .next t → t.runState ≠ s.runState →
    (nextIs s .start ∧ (t.runState = .running ∨ t.runState = .failed))
      ∨ (nextIs s .reset ∧ t.runState = .idle)
      ∨ (s.runState = .running ∧ (nextIs s (.char 0x0A#8) ∨ nextIs s .eoi)
          ∧ (t.runState = .done ∨ t.runState = .failed))

/-- 10_state R32, 41_memory R159: HIGH_BASE changes only by START and RESET, to 0, and by the commit of a complete
Extended-High-Address record with two payload bytes. -/
def Obligations.HighBaseWriters : Prop :=
  ∀ s t : State, step s = .next t → t.highBase ≠ s.highBase →
    ((nextIs s .start ∨ nextIs s .reset) ∧ t.highBase = 0#32)
      ∨ ((nextIs s (.char 0x0A#8) ∨ nextIs s .eoi) ∧ s.runState = .running ∧ s.ph = .trl ∧ s.rtype = 0x04#8
          ∧ 2 ≤ s.bc.toNat ∧ t.highBase = s.pbuf.read 0 ++ s.pbuf.read 1 ++ 0#16)

/-- 10_state R44, R30: the window of a run changes only by RESET and by a START that accepts, which latches WIN_START and
WIN_SIZE. -/
def Obligations.ActiveWindowWriters : Prop :=
  ∀ s t : State, step s = .next t →
    (t.actStart = s.actStart ∧ t.actSize = s.actSize)
      ∨ (nextIs s .reset ∧ t.actStart = 0#32 ∧ t.actSize = 0#32)
      ∨ (nextIs s .start ∧ t.runState = .running ∧ t.actStart = s.winStart ∧ t.actSize = s.winSize)

/-- 10_state R35, 20_memory R73: CHECKSUM changes only by START and RESET, to 0, and by the end of a run in DONE, to the
CRC-32 of the window's bytes. -/
def Obligations.ChecksumWriters : Prop :=
  ∀ s t : State, step s = .next t → t.checksum ≠ s.checksum →
    ((nextIs s .start ∨ nextIs s .reset) ∧ t.checksum = 0#32)
      ∨ (s.runState = .running ∧ (nextIs s (.char 0x0A#8) ∨ nextIs s .eoi) ∧ t.runState = .done
          ∧ t.checksum = crc32 (t.wbuf.bytes t.actSize.toNat))

/-- 10_state R33, 20_memory R73: CRC_STATE changes only by RESET, CRC_INIT, CRC_BYTE, and by the end of a run in DONE, to
the raw register over the window's bytes, so that CRC_RESULT is then CHECKSUM. -/
def Obligations.CrcStateWriters : Prop :=
  ∀ s t : State, step s = .next t → t.crcState ≠ s.crcState →
    ((nextIs s .crcInit ∨ nextIs s .reset) ∧ t.crcState = 0xFFFFFFFF#32)
      ∨ (∃ b, nextIs s (.crcByte b) ∧ t.crcState = crcUpdate s.crcState b)
      ∨ (s.runState = .running ∧ (nextIs s (.char 0x0A#8) ∨ nextIs s .eoi) ∧ t.runState = .done
          ∧ t.crcState = crcFeed 0xFFFFFFFF#32 (t.wbuf.bytes t.actSize.toNat) ∧ crcResultWord t = t.checksum)

/-- 10_state R25 to R27, R29, R49: what changes ANY_HIT, TERM_SEEN, BUF_VALID and FATAL, and to which value. -/
def Obligations.RunFlagWriters : Prop :=
  ∀ s t : State, step s = .next t →
    let restart := nextIs s .start ∨ nextIs s .reset
    let lineEnd := s.runState = .running ∧ (nextIs s (.char 0x0A#8) ∨ nextIs s .eoi)
    (t.anyHit ≠ s.anyHit →
        (restart ∧ t.anyHit = false) ∨ (lineEnd ∧ s.ph = .trl ∧ s.rtype = 0x00#8 ∧ t.anyHit = true))
      ∧ (t.termSeen ≠ s.termSeen →
        (restart ∧ t.termSeen = false) ∨ (lineEnd ∧ s.ph = .trl ∧ s.rtype = 0x01#8 ∧ t.termSeen = true))
      ∧ (t.bufValid ≠ s.bufValid →
        (nextIs s .start ∧ t.runState = .running ∧ t.bufValid = true)
          ∨ (nextIs s .start ∧ t.runState = .failed ∧ t.bufValid = false)
          ∨ (nextIs s .reset ∧ t.bufValid = false))
      ∧ (t.fatal ≠ s.fatal →
        (nextIs s .start ∧ t.runState = .running ∧ t.fatal = .noError)
          ∨ (nextIs s .start ∧ t.runState = .failed
              ∧ (t.fatal = .winZero ∨ t.fatal = .winOverflow ∨ t.fatal = .winTooLarge))
          ∨ (nextIs s .reset ∧ t.fatal = .noError)
          ∨ (lineEnd ∧ t.runState = .failed ∧ t.fatal = .empty))

/-- 10_state R36 to R39, 41_memory R151: the line registers change only by START and RESET, to zero, and by the end of a
line in a run, which counts the line and at most one error, recorded with that line's number. -/
def Obligations.LineRegisterWriters : Prop :=
  ∀ s t : State, step s = .next t →
    (t.lineCount = s.lineCount ∧ t.lineOutcome = s.lineOutcome ∧ t.lineRtype = s.lineRtype
        ∧ t.errCount = s.errCount ∧ t.errLine = s.errLine)
      ∨ ((nextIs s .start ∨ nextIs s .reset) ∧ t.lineCount = 0#32 ∧ lineResultWord t = 0#32
          ∧ t.errCount = 0#32 ∧ t.errLine = 0#32)
      ∨ (s.runState = .running ∧ (nextIs s (.char 0x0A#8) ∨ (nextIs s .eoi ∧ s.ph ≠ .ls))
          ∧ t.lineCount = s.lineCount + 1#32
          ∧ ((t.errCount = s.errCount ∧ t.errLine = s.errLine)
            ∨ (t.errCount = s.errCount + 1#32 ∧ t.errLine = t.lineCount)))

/-- 10_state R28, 60_exceptions R235: CMD_ERR is set only by an illegal word or by CHAR or EOI in IDLE, and cleared only
by reset. -/
def Obligations.CommandErrorIsSticky : Prop :=
  ∀ s t : State, step s = .next t →
    (s.cmdErr = true → t.cmdErr = true ∨ nextIs s .reset)
      ∧ (s.cmdErr = false → t.cmdErr = true →
          (∃ w, nextIs s (.illegal w))
            ∨ (s.runState = .idle ∧ ((∃ c, nextIs s (.char c)) ∨ nextIs s .eoi)))

/-- 10_state R40, R30, R31: BUF_INDEX, WIN_START and WIN_SIZE change only by the host's write to them and by RESET. -/
def Obligations.HostRegisterWriters : Prop :=
  ∀ s t : State, step s = .next t →
    (t.bufIndex ≠ s.bufIndex → nextIs s .reset ∨ ∃ rest, s.pending = writeAccess 0x30#6 t.bufIndex :: rest)
      ∧ (t.winStart ≠ s.winStart → nextIs s .reset ∨ ∃ rest, s.pending = writeAccess 0x08#6 t.winStart :: rest)
      ∧ (t.winSize ≠ s.winSize → nextIs s .reset ∨ ∃ rest, s.pending = writeAccess 0x0C#6 t.winSize :: rest)

/-- 43_control R212, R213, R214: the output file exists only in DONE, has ACT_SIZE bytes, and byte i is what BUF_DATA reads
at BUF_INDEX = i. -/
def Obligations.OutputFileIsWhatBufDataReads : Prop :=
  ∀ (s : State) (bs : List Byte), Inv s → outputFile s = some bs →
    s.runState = .done ∧ bs.length = reportedLength s ∧
      ∀ i : Word, i.toNat < s.actSize.toNat →
        ∃ t, exec .rdBufData { s with bufIndex := i } = .next t ∧ t.readData = (bs.getD i.toNat 0#8).setWidth 32
end

