-- ==== Sys2Proof/Laws/Decode.lean ====
section
/-! SUPPORT. What the decoder does, stated once: command words by their fields, accesses by their place, and that only
well-formed instructions come out. -/

namespace Sys2Proof

/-- A command word is its three fields. -/
theorem commandWord_toNat (op arg : Byte) : (commandWord op arg).toNat = op.toNat * 2 ^ 24 + arg.toNat := by
  simp only [commandWord, BitVec.toNat_append, BitVec.toNat_ofNat]
  rw [← Nat.shiftLeft_add_eq_or_of_lt (b := 0) (by decide), ← Nat.shiftLeft_add_eq_or_of_lt arg.isLt,
    Nat.shiftLeft_eq, Nat.shiftLeft_eq]
  omega

theorem decodeCommand_char (w : Word) (c : Byte) :
    decodeCommand w = .char c ↔ w = commandWord 0x03#8 c := by
  have h := commandWord_toNat 0x03#8 c
  have hw := w.isLt
  have hc := c.isLt
  unfold decodeCommand
  simp only [← BitVec.toNat_inj, BitVec.extractLsb'_toNat, Nat.shiftRight_eq_div_pow] at *
  repeat' split
  all_goals simp only [reduceCtorEq, Command.char.injEq, ← BitVec.toNat_inj, BitVec.extractLsb'_toNat, BitVec.toNat_ofNat,
    Nat.shiftRight_eq_div_pow, false_iff] at *
  all_goals omega

theorem decodeCommand_crcByte (w : Word) (b : Byte) :
    decodeCommand w = .crcByte b ↔ w = commandWord 0x06#8 b := by
  have h := commandWord_toNat 0x06#8 b
  have hw := w.isLt
  have hb := b.isLt
  unfold decodeCommand
  simp only [← BitVec.toNat_inj, BitVec.extractLsb'_toNat, Nat.shiftRight_eq_div_pow] at *
  repeat' split
  all_goals simp only [reduceCtorEq, Command.crcByte.injEq, ← BitVec.toNat_inj, BitVec.extractLsb'_toNat,
    BitVec.toNat_ofNat, Nat.shiftRight_eq_div_pow, false_iff] at *
  all_goals omega

/-- ILLEGAL carries its word, and its word is one R93 names. -/
theorem decodeCommand_illegal (w v : Word) : decodeCommand w = .illegal v ↔ w = v ∧ isIllegalWord w = true := by
  have hw := w.isLt
  have hv := v.isLt
  unfold decodeCommand isIllegalWord
  simp only [Bool.or_eq_true, Bool.and_eq_true, bne_iff_ne, decide_eq_true_eq, ne_eq]
  simp only [← BitVec.toNat_inj, BitVec.extractLsb'_toNat, Nat.shiftRight_eq_div_pow] at *
  repeat' split
  all_goals simp only [reduceCtorEq, Command.illegal.injEq, ← BitVec.toNat_inj, BitVec.toNat_ofNat, false_iff] at *
  all_goals omega

/-- A record type is one of four rows; the last carries its code, which is none of the other three. -/
theorem recordInstr_cases (t : Byte) :
    (t = 0x00#8 ∧ recordInstr t = .recData) ∨ (t = 0x01#8 ∧ recordInstr t = .recEof)
      ∨ (t = 0x04#8 ∧ recordInstr t = .recEla)
      ∨ ((t ≠ 0x00#8 ∧ t ≠ 0x01#8 ∧ t ≠ 0x04#8) ∧ recordInstr t = .recIgnored t) := by
  unfold recordInstr decodeRecordType
  by_cases h0 : t = 0x00#8
  · simp [h0]
  by_cases h1 : t = 0x01#8
  · simp [h1]
  by_cases h4 : t = 0x04#8
  · simp [h4]
  simp [h0, h1, h4]

/-- A read row carries no operand and is one of the sixteen. -/
theorem readRow_mem {o : BitVec 6} {i : Instr} (h : readRow o = some i) :
    i ∈ [Instr.rdCmd, .rdStatus, .rdWinStart, .rdWinSize, .rdHighBase, .rdCrcState, .rdCrcResult, .rdChecksum,
      .rdLineCount, .rdLineResult, .rdErrCount, .rdErrLine, .rdBufIndex, .rdBufData, .rdParseState, .rdMaxWindow] := by
  unfold readRow at h
  split at h <;> simp_all

/-- A write row is one of the four registers, or an ignored write at a read-only offset. -/
theorem writeRow_cases {o : BitVec 6} {w : Word} {i : Instr} (h : writeRow o w = some i) :
    (o = 0x00#6 ∧ i = .wrCmd w) ∨ (o = 0x08#6 ∧ i = .wrWinStart w) ∨ (o = 0x0C#6 ∧ i = .wrWinSize w)
      ∨ (o = 0x30#6 ∧ i = .wrBufIndex w) ∨ (readOnlyOffsets.contains o = true ∧ i = .wrIgnored o w) := by
  unfold writeRow at h
  split at h <;> simp_all

/-- An accepted access is a 32-bit one inside the window, and its row is the instruction. -/
theorem decodeAccess_ok {a : Access} {i : Instr} (h : decodeAccess a = .ok i) :
    a.width = .w32 ∧ 0 ≤ a.offset ∧ a.offset < 64 ∧ busRow a.dir (BitVec.ofInt 6 a.offset) a.data = some i := by
  unfold decodeAccess at h
  split at h
  · simp at h
  · split at h
    · simp at h
    · rename_i hw ho
      split at h
      · rename_i j hj
        refine ⟨by simpa using hw, by omega, by omega, ?_⟩
        rw [hj]
        simpa using h
      · simp at h

/-- An accepted write: which register it is at, or that it is ignored. -/
theorem decodeAccess_write {a : Access} {i : Instr} (h : decodeAccess a = .ok i) (hd : a.dir = .write) :
    a.width = .w32 ∧ ((a.offset = 0x00 ∧ i = .wrCmd a.data) ∨ (a.offset = 0x08 ∧ i = .wrWinStart a.data)
      ∨ (a.offset = 0x0C ∧ i = .wrWinSize a.data) ∨ (a.offset = 0x30 ∧ i = .wrBufIndex a.data)
      ∨ ∃ o, readOnlyOffsets.contains o = true ∧ i = .wrIgnored o a.data) := by
  obtain ⟨hw, h0, h1, hr⟩ := decodeAccess_ok h
  rw [hd] at hr
  have key : ∀ n : Nat, n < 64 → BitVec.ofInt 6 a.offset = BitVec.ofNat 6 n → a.offset = n := by
    intro n hn he
    have := congrArg BitVec.toNat he
    simp only [BitVec.toNat_ofInt, BitVec.toNat_ofNat] at this
    omega
  refine ⟨hw, ?_⟩
  rcases writeRow_cases hr with ⟨ho, hi⟩ | ⟨ho, hi⟩ | ⟨ho, hi⟩ | ⟨ho, hi⟩ | ⟨ho, hi⟩
  · exact .inl ⟨key 0x00 (by decide) ho, hi⟩
  · exact .inr (.inl ⟨key 0x08 (by decide) ho, hi⟩)
  · exact .inr (.inr (.inl ⟨key 0x0C (by decide) ho, hi⟩))
  · exact .inr (.inr (.inr (.inl ⟨key 0x30 (by decide) ho, hi⟩)))
  · exact .inr (.inr (.inr (.inr ⟨_, ho, hi⟩)))

/-- An accepted read is one of the sixteen. -/
theorem decodeAccess_read {a : Access} {i : Instr} (h : decodeAccess a = .ok i) (hd : a.dir = .read) :
    i ∈ [Instr.rdCmd, .rdStatus, .rdWinStart, .rdWinSize, .rdHighBase, .rdCrcState, .rdCrcResult, .rdChecksum,
      .rdLineCount, .rdLineResult, .rdErrCount, .rdErrLine, .rdBufIndex, .rdBufData, .rdParseState, .rdMaxWindow] := by
  obtain ⟨-, -, -, hr⟩ := decodeAccess_ok h
  rw [hd] at hr
  exact readRow_mem hr

/-- What the decoder gives, it gives in one of three ways. -/
theorem decode_cases {e : Encoding} {i : Instr} (h : decode e = .ok i) :
    (∃ w, e = .command w ∧ i = commandInstr (decodeCommand w)) ∨ (∃ t, e = .recordType t ∧ i = recordInstr t)
      ∨ ∃ a, e = .bus a ∧ decodeAccess a = .ok i := by
  cases e with
  | command w => exact .inl ⟨w, rfl, by simpa [decode, eq_comm] using h⟩
  | recordType t => exact .inr (.inl ⟨t, rfl, by simpa [decode, eq_comm] using h⟩)
  | bus a => exact .inr (.inr ⟨a, rfl, h⟩)

/-- The decoder gives only well-formed instructions. -/
theorem decode_wellFormed {e : Encoding} {i : Instr} (h : decode e = .ok i) : i.wellFormed = true := by
  rcases decode_cases h with ⟨w, -, rfl⟩ | ⟨t, -, rfl⟩ | ⟨a, -, h⟩
  · cases hc : decodeCommand w with
    | illegal v => obtain ⟨rfl, hi⟩ := (decodeCommand_illegal w v).1 hc; exact hi
    | nop | reset | start | char | eoi | crcInit | crcByte => rfl
  · rcases recordInstr_cases t with ⟨-, h⟩ | ⟨-, h⟩ | ⟨-, h⟩ | ⟨⟨h0, h1, h4⟩, h⟩ <;> rw [h]
    · rfl
    · rfl
    · rfl
    · simp [Instr.wellFormed, h0, h1, h4]
  · cases hd : a.dir with
    | read =>
      have := decodeAccess_read h hd
      simp only [List.mem_cons, List.not_mem_nil, or_false] at this
      rcases this with rfl | rfl | rfl | rfl | rfl | rfl | rfl | rfl | rfl | rfl | rfl | rfl | rfl | rfl | rfl | rfl <;> rfl
    | write =>
      obtain ⟨-, ⟨-, rfl⟩ | ⟨-, rfl⟩ | ⟨-, rfl⟩ | ⟨-, rfl⟩ | ⟨o, ho, rfl⟩⟩ := decodeAccess_write h hd
      · rfl
      · rfl
      · rfl
      · rfl
      · exact ho

end Sys2Proof
end

