-- ==== Sys2Proof/Laws/Memory.lean ====
section
/-! SUPPORT. The buffers: every operation keeps the canonical form, and what is read after it. -/

namespace Sys2Proof.Machine

theorem Memory.wf_nil : Memory.wf [] := ⟨.nil, by simp⟩

/-- Both buffers of the state after reset are in canonical form. -/
theorem reset_buffers_wf : Memory.wf State.reset.pbuf ∧ Memory.wf State.reset.wbuf :=
  ⟨Memory.wf_nil, Memory.wf_nil⟩

theorem Memory.wf_cons {c : Host.Cell} {m : Memory} :
    Memory.wf (c :: m) ↔ (∀ d ∈ m, c.1 < d.1) ∧ c.2 ≠ Memory.unlisted ∧ Memory.wf m := by
  simp only [Memory.wf, List.map_cons, List.pairwise_cons, List.mem_map, List.mem_cons]
  constructor
  · rintro ⟨⟨h1, h2⟩, h3⟩
    exact ⟨fun d hd => h1 _ ⟨d, hd, rfl⟩, h3 c (.inl rfl), h2, fun d hd => h3 d (.inr hd)⟩
  · rintro ⟨h1, h2, h3, h4⟩
    refine ⟨⟨?_, h3⟩, ?_⟩
    · rintro _ ⟨d, hd, rfl⟩; exact h1 d hd
    · rintro d (rfl | hd)
      exacts [h2, h4 d hd]

@[simp] theorem Memory.read_nil (a : Nat) : Memory.read [] a = Memory.unlisted := rfl

theorem Memory.read_cons (c : Host.Cell) (m : Memory) (a : Nat) :
    Memory.read (c :: m) a = if a = c.1 then c.2 else Memory.read m a := rfl

/-- An index below every listed one reads as unlisted. -/
theorem Memory.read_below {m : Memory} {a : Nat} (h : ∀ d ∈ m, a < d.1) : m.read a = Memory.unlisted := by
  induction m with
  | nil => rfl
  | cons c m ih =>
    have hc : a < c.1 := h c (by simp)
    rw [Memory.read_cons, if_neg (by omega), ih fun d hd => h d (by simp [hd])]

/-- A write lists no index but the written one and those listed before. -/
theorem Memory.mem_write {m : Memory} {a : Nat} {b : Byte} {d : Host.Cell} (h : d ∈ m.write a b) :
    d ∈ m ∨ d.1 = a := by
  induction m with
  | nil =>
    unfold Memory.write at h
    split at h <;> simp_all
  | cons c m ih =>
    unfold Memory.write at h
    split at h
    · split at h
      · exact .inl h
      · rcases List.mem_cons.1 h with rfl | h
        exacts [.inr rfl, .inl h]
    · split at h
      · split at h
        · exact .inl (List.mem_cons_of_mem _ h)
        · rcases List.mem_cons.1 h with rfl | h
          exacts [.inr rfl, .inl (List.mem_cons_of_mem _ h)]
      · rcases List.mem_cons.1 h with rfl | h
        · simp
        · rcases ih h with h | h <;> simp [h]

/-- Every write keeps the canonical form. -/
theorem Memory.write_wf {m : Memory} (h : m.wf) (a : Nat) (b : Byte) : (m.write a b).wf := by
  induction m with
  | nil =>
    unfold Memory.write
    split
    · exact Memory.wf_nil
    · exact Memory.wf_cons.2 ⟨by simp, ‹_›, Memory.wf_nil⟩
  | cons c m ih =>
    obtain ⟨h1, h2, h3⟩ := Memory.wf_cons.1 h
    unfold Memory.write
    split
    · split
      · exact h
      · refine Memory.wf_cons.2 ⟨?_, ‹_›, h⟩
        intro d hd
        rcases List.mem_cons.1 hd with rfl | hd
        · assumption
        · have := h1 d hd; simp only; omega
    · split
      · split
        · exact h3
        · refine Memory.wf_cons.2 ⟨?_, ‹_›, h3⟩
          intro d hd
          have := h1 d hd; simp only; omega
      · refine Memory.wf_cons.2 ⟨?_, h2, ih h3⟩
        intro d hd
        rcases Memory.mem_write hd with hd | hd
        · exact h1 d hd
        · omega

/-- A read after a write: the written byte at its index, the old byte elsewhere. -/
theorem Memory.read_write {m : Memory} (h : m.wf) (a k : Nat) (b : Byte) :
    (m.write a b).read k = if k = a then b else m.read k := by
  induction m with
  | nil =>
    unfold Memory.write
    split <;> simp_all [Memory.read_cons]
  | cons c m ih =>
    obtain ⟨h1, h2, h3⟩ := Memory.wf_cons.1 h
    unfold Memory.write
    split
    · rename_i hlt
      have hbelow : Memory.read (c :: m) a = Memory.unlisted :=
        Memory.read_below fun d hd => by
          rcases List.mem_cons.1 hd with rfl | hd
          · exact hlt
          · have := h1 d hd; omega
      split
      · rename_i hb
        split
        · rename_i hk; rw [hk, hb, hbelow]
        · rfl
      · rw [Memory.read_cons]
    · split
      · rename_i heq
        have hbelow : Memory.read m a = Memory.unlisted := Memory.read_below (by simpa [heq] using h1)
        rw [Memory.read_cons c, ← heq]
        split
        · rename_i hb
          by_cases hk : k = a
          · rw [if_pos hk, hk, hb, hbelow]
          · rw [if_neg hk, if_neg hk]
        · rw [Memory.read_cons]
          by_cases hk : k = a
          · rw [if_pos hk, if_pos hk]
          · rw [if_neg hk, if_neg hk, if_neg hk]
      · rename_i hne
        rw [Memory.read_cons, Memory.read_cons, ih h3]
        by_cases hk : k = c.1
        · rw [if_pos hk, if_pos hk, if_neg (by omega)]
        · rw [if_neg hk, if_neg hk]

/-- Erasing keeps the canonical form. -/
theorem Memory.eraseBelow_wf {m : Memory} (h : m.wf) (n : Nat) : Memory.wf (Memory.eraseBelow m n) := by
  refine ⟨?_, fun c hc => h.2 c (List.mem_of_mem_filter hc)⟩
  exact h.1.sublist ((List.filter_sublist (p := fun c : Host.Cell => decide (n ≤ c.1))).map _)

/-- Erasing lists nothing new. -/
theorem Memory.mem_eraseBelow {m : Memory} {n : Nat} {c : Host.Cell} (h : c ∈ Memory.eraseBelow m n) : c ∈ m :=
  List.mem_of_mem_filter h

/-- What is read after erasing the indices below n. -/
theorem Memory.read_eraseBelow (m : Memory) (n k : Nat) :
    (Memory.eraseBelow m n).read k = if k < n then Memory.unlisted else m.read k := by
  induction m with
  | nil => simp [Memory.eraseBelow]
  | cons c m ih =>
    have hcons : Memory.eraseBelow (c :: m) n = if n ≤ c.1 then c :: Memory.eraseBelow m n else Memory.eraseBelow m n := by
      simp only [Memory.eraseBelow, List.filter_cons, decide_eq_true_eq]
    rw [hcons]
    split
    · rw [Memory.read_cons, Memory.read_cons, ih]
      by_cases hk : k = c.1
      · rw [if_pos hk, if_pos hk, if_neg (by omega)]
      · rw [if_neg hk, if_neg hk]
    · rw [ih, Memory.read_cons]
      by_cases hk : k < n
      · rw [if_pos hk, if_pos hk]
      · rw [if_neg hk, if_neg hk, if_neg (by omega)]

@[simp] theorem Memory.length_bytes (m : Memory) (n : Nat) : (m.bytes n).length = n := by
  simp [Memory.bytes]

/-- Byte i of a dump is the byte read at i. -/
theorem Memory.getElem_bytes (m : Memory) (n i : Nat) (h : i < (m.bytes n).length) :
    (m.bytes n)[i] = m.read i := by
  simp [Memory.bytes]

/-- Two buffers that read alike below n give the same dump. -/
theorem Memory.bytes_congr {m m' : Memory} {n : Nat} (h : ∀ i, i < n → m.read i = m'.read i) :
    m.bytes n = m'.bytes n :=
  List.map_congr_left fun i hi => h i (List.mem_range.1 hi)

end Sys2Proof.Machine
end

