-- ==== Sys2Proof/Laws/State.lean ====
section
/-! SUPPORT. One lemma per field for each named update of State, so that no later proof unfolds a record update. -/

namespace Sys2Proof.Machine

@[simp] theorem setLine_runState (o : LineOutcome) (r : Byte) (s : State) :
    (setLine o r s).runState = s.runState := rfl
@[simp] theorem setLine_bufValid (o : LineOutcome) (r : Byte) (s : State) :
    (setLine o r s).bufValid = s.bufValid := rfl
@[simp] theorem setLine_anyHit (o : LineOutcome) (r : Byte) (s : State) : (setLine o r s).anyHit = s.anyHit := rfl
@[simp] theorem setLine_termSeen (o : LineOutcome) (r : Byte) (s : State) :
    (setLine o r s).termSeen = s.termSeen := rfl
@[simp] theorem setLine_cmdErr (o : LineOutcome) (r : Byte) (s : State) : (setLine o r s).cmdErr = s.cmdErr := rfl
@[simp] theorem setLine_fatal (o : LineOutcome) (r : Byte) (s : State) : (setLine o r s).fatal = s.fatal := rfl
@[simp] theorem setLine_winStart (o : LineOutcome) (r : Byte) (s : State) :
    (setLine o r s).winStart = s.winStart := rfl
@[simp] theorem setLine_winSize (o : LineOutcome) (r : Byte) (s : State) : (setLine o r s).winSize = s.winSize := rfl
@[simp] theorem setLine_highBase (o : LineOutcome) (r : Byte) (s : State) :
    (setLine o r s).highBase = s.highBase := rfl
@[simp] theorem setLine_crcState (o : LineOutcome) (r : Byte) (s : State) :
    (setLine o r s).crcState = s.crcState := rfl
@[simp] theorem setLine_checksum (o : LineOutcome) (r : Byte) (s : State) :
    (setLine o r s).checksum = s.checksum := rfl
@[simp] theorem setLine_lineCount (o : LineOutcome) (r : Byte) (s : State) :
    (setLine o r s).lineCount = s.lineCount := rfl
@[simp] theorem setLine_lineOutcome (o : LineOutcome) (r : Byte) (s : State) : (setLine o r s).lineOutcome = o := rfl
@[simp] theorem setLine_lineRtype (o : LineOutcome) (r : Byte) (s : State) : (setLine o r s).lineRtype = r := rfl
@[simp] theorem setLine_errCount (o : LineOutcome) (r : Byte) (s : State) :
    (setLine o r s).errCount = s.errCount := rfl
@[simp] theorem setLine_errLine (o : LineOutcome) (r : Byte) (s : State) : (setLine o r s).errLine = s.errLine := rfl
@[simp] theorem setLine_bufIndex (o : LineOutcome) (r : Byte) (s : State) :
    (setLine o r s).bufIndex = s.bufIndex := rfl
@[simp] theorem setLine_actStart (o : LineOutcome) (r : Byte) (s : State) :
    (setLine o r s).actStart = s.actStart := rfl
@[simp] theorem setLine_actSize (o : LineOutcome) (r : Byte) (s : State) : (setLine o r s).actSize = s.actSize := rfl
@[simp] theorem setLine_ph (o : LineOutcome) (r : Byte) (s : State) : (setLine o r s).ph = s.ph := rfl
@[simp] theorem setLine_pos (o : LineOutcome) (r : Byte) (s : State) : (setLine o r s).pos = s.pos := rfl
@[simp] theorem setLine_bc (o : LineOutcome) (r : Byte) (s : State) : (setLine o r s).bc = s.bc := rfl
@[simp] theorem setLine_off (o : LineOutcome) (r : Byte) (s : State) : (setLine o r s).off = s.off := rfl
@[simp] theorem setLine_rtype (o : LineOutcome) (r : Byte) (s : State) : (setLine o r s).rtype = s.rtype := rfl
@[simp] theorem setLine_pbuf (o : LineOutcome) (r : Byte) (s : State) : (setLine o r s).pbuf = s.pbuf := rfl
@[simp] theorem setLine_wbuf (o : LineOutcome) (r : Byte) (s : State) : (setLine o r s).wbuf = s.wbuf := rfl
@[simp] theorem setLine_pending (o : LineOutcome) (r : Byte) (s : State) : (setLine o r s).pending = s.pending := rfl
@[simp] theorem setLine_readData (o : LineOutcome) (r : Byte) (s : State) :
    (setLine o r s).readData = s.readData := rfl

@[simp] theorem lineError_runState (k : LineError) (s : State) : (lineError k s).runState = s.runState := rfl
@[simp] theorem lineError_bufValid (k : LineError) (s : State) : (lineError k s).bufValid = s.bufValid := rfl
@[simp] theorem lineError_anyHit (k : LineError) (s : State) : (lineError k s).anyHit = s.anyHit := rfl
@[simp] theorem lineError_termSeen (k : LineError) (s : State) : (lineError k s).termSeen = s.termSeen := rfl
@[simp] theorem lineError_cmdErr (k : LineError) (s : State) : (lineError k s).cmdErr = s.cmdErr := rfl
@[simp] theorem lineError_fatal (k : LineError) (s : State) : (lineError k s).fatal = s.fatal := rfl
@[simp] theorem lineError_winStart (k : LineError) (s : State) : (lineError k s).winStart = s.winStart := rfl
@[simp] theorem lineError_winSize (k : LineError) (s : State) : (lineError k s).winSize = s.winSize := rfl
@[simp] theorem lineError_highBase (k : LineError) (s : State) : (lineError k s).highBase = s.highBase := rfl
@[simp] theorem lineError_crcState (k : LineError) (s : State) : (lineError k s).crcState = s.crcState := rfl
@[simp] theorem lineError_checksum (k : LineError) (s : State) : (lineError k s).checksum = s.checksum := rfl
@[simp] theorem lineError_lineCount (k : LineError) (s : State) : (lineError k s).lineCount = s.lineCount := rfl
@[simp] theorem lineError_lineOutcome (k : LineError) (s : State) : (lineError k s).lineOutcome = .error k := rfl
@[simp] theorem lineError_lineRtype (k : LineError) (s : State) :
    (lineError k s).lineRtype = if k = .elaShort then s.rtype else 0x00#8 := rfl
@[simp] theorem lineError_errCount (k : LineError) (s : State) : (lineError k s).errCount = s.errCount + 1#32 := rfl
@[simp] theorem lineError_errLine (k : LineError) (s : State) : (lineError k s).errLine = s.lineCount := rfl
@[simp] theorem lineError_bufIndex (k : LineError) (s : State) : (lineError k s).bufIndex = s.bufIndex := rfl
@[simp] theorem lineError_actStart (k : LineError) (s : State) : (lineError k s).actStart = s.actStart := rfl
@[simp] theorem lineError_actSize (k : LineError) (s : State) : (lineError k s).actSize = s.actSize := rfl
@[simp] theorem lineError_ph (k : LineError) (s : State) : (lineError k s).ph = s.ph := rfl
@[simp] theorem lineError_pos (k : LineError) (s : State) : (lineError k s).pos = s.pos := rfl
@[simp] theorem lineError_bc (k : LineError) (s : State) : (lineError k s).bc = s.bc := rfl
@[simp] theorem lineError_off (k : LineError) (s : State) : (lineError k s).off = s.off := rfl
@[simp] theorem lineError_rtype (k : LineError) (s : State) : (lineError k s).rtype = s.rtype := rfl
@[simp] theorem lineError_pbuf (k : LineError) (s : State) : (lineError k s).pbuf = s.pbuf := rfl
@[simp] theorem lineError_wbuf (k : LineError) (s : State) : (lineError k s).wbuf = s.wbuf := rfl
@[simp] theorem lineError_pending (k : LineError) (s : State) : (lineError k s).pending = s.pending := rfl
@[simp] theorem lineError_readData (k : LineError) (s : State) : (lineError k s).readData = s.readData := rfl

@[simp] theorem fatalError_runState (e : FatalCode) (s : State) : (fatalError e s).runState = .failed := rfl
@[simp] theorem fatalError_bufValid (e : FatalCode) (s : State) : (fatalError e s).bufValid = s.bufValid := rfl
@[simp] theorem fatalError_anyHit (e : FatalCode) (s : State) : (fatalError e s).anyHit = s.anyHit := rfl
@[simp] theorem fatalError_termSeen (e : FatalCode) (s : State) : (fatalError e s).termSeen = s.termSeen := rfl
@[simp] theorem fatalError_cmdErr (e : FatalCode) (s : State) : (fatalError e s).cmdErr = s.cmdErr := rfl
@[simp] theorem fatalError_fatal (e : FatalCode) (s : State) : (fatalError e s).fatal = e := rfl
@[simp] theorem fatalError_winStart (e : FatalCode) (s : State) : (fatalError e s).winStart = s.winStart := rfl
@[simp] theorem fatalError_winSize (e : FatalCode) (s : State) : (fatalError e s).winSize = s.winSize := rfl
@[simp] theorem fatalError_highBase (e : FatalCode) (s : State) : (fatalError e s).highBase = s.highBase := rfl
@[simp] theorem fatalError_crcState (e : FatalCode) (s : State) : (fatalError e s).crcState = s.crcState := rfl
@[simp] theorem fatalError_checksum (e : FatalCode) (s : State) : (fatalError e s).checksum = s.checksum := rfl
@[simp] theorem fatalError_lineCount (e : FatalCode) (s : State) : (fatalError e s).lineCount = s.lineCount := rfl
@[simp] theorem fatalError_lineOutcome (e : FatalCode) (s : State) :
    (fatalError e s).lineOutcome = s.lineOutcome := rfl
@[simp] theorem fatalError_lineRtype (e : FatalCode) (s : State) : (fatalError e s).lineRtype = s.lineRtype := rfl
@[simp] theorem fatalError_errCount (e : FatalCode) (s : State) : (fatalError e s).errCount = s.errCount := rfl
@[simp] theorem fatalError_errLine (e : FatalCode) (s : State) : (fatalError e s).errLine = s.errLine := rfl
@[simp] theorem fatalError_bufIndex (e : FatalCode) (s : State) : (fatalError e s).bufIndex = s.bufIndex := rfl
@[simp] theorem fatalError_actStart (e : FatalCode) (s : State) : (fatalError e s).actStart = s.actStart := rfl
@[simp] theorem fatalError_actSize (e : FatalCode) (s : State) : (fatalError e s).actSize = s.actSize := rfl
@[simp] theorem fatalError_ph (e : FatalCode) (s : State) : (fatalError e s).ph = s.ph := rfl
@[simp] theorem fatalError_pos (e : FatalCode) (s : State) : (fatalError e s).pos = s.pos := rfl
@[simp] theorem fatalError_bc (e : FatalCode) (s : State) : (fatalError e s).bc = s.bc := rfl
@[simp] theorem fatalError_off (e : FatalCode) (s : State) : (fatalError e s).off = s.off := rfl
@[simp] theorem fatalError_rtype (e : FatalCode) (s : State) : (fatalError e s).rtype = s.rtype := rfl
@[simp] theorem fatalError_pbuf (e : FatalCode) (s : State) : (fatalError e s).pbuf = s.pbuf := rfl
@[simp] theorem fatalError_wbuf (e : FatalCode) (s : State) : (fatalError e s).wbuf = s.wbuf := rfl
@[simp] theorem fatalError_pending (e : FatalCode) (s : State) : (fatalError e s).pending = s.pending := rfl
@[simp] theorem fatalError_readData (e : FatalCode) (s : State) : (fatalError e s).readData = s.readData := rfl

@[simp] theorem cmdError_runState (s : State) : (cmdError s).runState = s.runState := rfl
@[simp] theorem cmdError_bufValid (s : State) : (cmdError s).bufValid = s.bufValid := rfl
@[simp] theorem cmdError_anyHit (s : State) : (cmdError s).anyHit = s.anyHit := rfl
@[simp] theorem cmdError_termSeen (s : State) : (cmdError s).termSeen = s.termSeen := rfl
@[simp] theorem cmdError_cmdErr (s : State) : (cmdError s).cmdErr = true := rfl
@[simp] theorem cmdError_fatal (s : State) : (cmdError s).fatal = s.fatal := rfl
@[simp] theorem cmdError_winStart (s : State) : (cmdError s).winStart = s.winStart := rfl
@[simp] theorem cmdError_winSize (s : State) : (cmdError s).winSize = s.winSize := rfl
@[simp] theorem cmdError_highBase (s : State) : (cmdError s).highBase = s.highBase := rfl
@[simp] theorem cmdError_crcState (s : State) : (cmdError s).crcState = s.crcState := rfl
@[simp] theorem cmdError_checksum (s : State) : (cmdError s).checksum = s.checksum := rfl
@[simp] theorem cmdError_lineCount (s : State) : (cmdError s).lineCount = s.lineCount := rfl
@[simp] theorem cmdError_lineOutcome (s : State) : (cmdError s).lineOutcome = s.lineOutcome := rfl
@[simp] theorem cmdError_lineRtype (s : State) : (cmdError s).lineRtype = s.lineRtype := rfl
@[simp] theorem cmdError_errCount (s : State) : (cmdError s).errCount = s.errCount := rfl
@[simp] theorem cmdError_errLine (s : State) : (cmdError s).errLine = s.errLine := rfl
@[simp] theorem cmdError_bufIndex (s : State) : (cmdError s).bufIndex = s.bufIndex := rfl
@[simp] theorem cmdError_actStart (s : State) : (cmdError s).actStart = s.actStart := rfl
@[simp] theorem cmdError_actSize (s : State) : (cmdError s).actSize = s.actSize := rfl
@[simp] theorem cmdError_ph (s : State) : (cmdError s).ph = s.ph := rfl
@[simp] theorem cmdError_pos (s : State) : (cmdError s).pos = s.pos := rfl
@[simp] theorem cmdError_bc (s : State) : (cmdError s).bc = s.bc := rfl
@[simp] theorem cmdError_off (s : State) : (cmdError s).off = s.off := rfl
@[simp] theorem cmdError_rtype (s : State) : (cmdError s).rtype = s.rtype := rfl
@[simp] theorem cmdError_pbuf (s : State) : (cmdError s).pbuf = s.pbuf := rfl
@[simp] theorem cmdError_wbuf (s : State) : (cmdError s).wbuf = s.wbuf := rfl
@[simp] theorem cmdError_pending (s : State) : (cmdError s).pending = s.pending := rfl
@[simp] theorem cmdError_readData (s : State) : (cmdError s).readData = s.readData := rfl

@[simp] theorem respond_runState (v : Word) (s : State) : (respond v s).runState = s.runState := rfl
@[simp] theorem respond_bufValid (v : Word) (s : State) : (respond v s).bufValid = s.bufValid := rfl
@[simp] theorem respond_anyHit (v : Word) (s : State) : (respond v s).anyHit = s.anyHit := rfl
@[simp] theorem respond_termSeen (v : Word) (s : State) : (respond v s).termSeen = s.termSeen := rfl
@[simp] theorem respond_cmdErr (v : Word) (s : State) : (respond v s).cmdErr = s.cmdErr := rfl
@[simp] theorem respond_fatal (v : Word) (s : State) : (respond v s).fatal = s.fatal := rfl
@[simp] theorem respond_winStart (v : Word) (s : State) : (respond v s).winStart = s.winStart := rfl
@[simp] theorem respond_winSize (v : Word) (s : State) : (respond v s).winSize = s.winSize := rfl
@[simp] theorem respond_highBase (v : Word) (s : State) : (respond v s).highBase = s.highBase := rfl
@[simp] theorem respond_crcState (v : Word) (s : State) : (respond v s).crcState = s.crcState := rfl
@[simp] theorem respond_checksum (v : Word) (s : State) : (respond v s).checksum = s.checksum := rfl
@[simp] theorem respond_lineCount (v : Word) (s : State) : (respond v s).lineCount = s.lineCount := rfl
@[simp] theorem respond_lineOutcome (v : Word) (s : State) : (respond v s).lineOutcome = s.lineOutcome := rfl
@[simp] theorem respond_lineRtype (v : Word) (s : State) : (respond v s).lineRtype = s.lineRtype := rfl
@[simp] theorem respond_errCount (v : Word) (s : State) : (respond v s).errCount = s.errCount := rfl
@[simp] theorem respond_errLine (v : Word) (s : State) : (respond v s).errLine = s.errLine := rfl
@[simp] theorem respond_bufIndex (v : Word) (s : State) : (respond v s).bufIndex = s.bufIndex := rfl
@[simp] theorem respond_actStart (v : Word) (s : State) : (respond v s).actStart = s.actStart := rfl
@[simp] theorem respond_actSize (v : Word) (s : State) : (respond v s).actSize = s.actSize := rfl
@[simp] theorem respond_ph (v : Word) (s : State) : (respond v s).ph = s.ph := rfl
@[simp] theorem respond_pos (v : Word) (s : State) : (respond v s).pos = s.pos := rfl
@[simp] theorem respond_bc (v : Word) (s : State) : (respond v s).bc = s.bc := rfl
@[simp] theorem respond_off (v : Word) (s : State) : (respond v s).off = s.off := rfl
@[simp] theorem respond_rtype (v : Word) (s : State) : (respond v s).rtype = s.rtype := rfl
@[simp] theorem respond_pbuf (v : Word) (s : State) : (respond v s).pbuf = s.pbuf := rfl
@[simp] theorem respond_wbuf (v : Word) (s : State) : (respond v s).wbuf = s.wbuf := rfl
@[simp] theorem respond_pending (v : Word) (s : State) : (respond v s).pending = s.pending := rfl
@[simp] theorem respond_readData (v : Word) (s : State) : (respond v s).readData = v := rfl

@[simp] theorem clearRun_runState (s : State) : (clearRun s).runState = s.runState := rfl
@[simp] theorem clearRun_bufValid (s : State) : (clearRun s).bufValid = s.bufValid := rfl
@[simp] theorem clearRun_anyHit (s : State) : (clearRun s).anyHit = false := rfl
@[simp] theorem clearRun_termSeen (s : State) : (clearRun s).termSeen = false := rfl
@[simp] theorem clearRun_cmdErr (s : State) : (clearRun s).cmdErr = s.cmdErr := rfl
@[simp] theorem clearRun_fatal (s : State) : (clearRun s).fatal = .noError := rfl
@[simp] theorem clearRun_winStart (s : State) : (clearRun s).winStart = s.winStart := rfl
@[simp] theorem clearRun_winSize (s : State) : (clearRun s).winSize = s.winSize := rfl
@[simp] theorem clearRun_highBase (s : State) : (clearRun s).highBase = 0x00000000#32 := rfl
@[simp] theorem clearRun_crcState (s : State) : (clearRun s).crcState = s.crcState := rfl
@[simp] theorem clearRun_checksum (s : State) : (clearRun s).checksum = 0x00000000#32 := rfl
@[simp] theorem clearRun_lineCount (s : State) : (clearRun s).lineCount = 0x00000000#32 := rfl
@[simp] theorem clearRun_lineOutcome (s : State) : (clearRun s).lineOutcome = .noLine := rfl
@[simp] theorem clearRun_lineRtype (s : State) : (clearRun s).lineRtype = 0x00#8 := rfl
@[simp] theorem clearRun_errCount (s : State) : (clearRun s).errCount = 0x00000000#32 := rfl
@[simp] theorem clearRun_errLine (s : State) : (clearRun s).errLine = 0x00000000#32 := rfl
@[simp] theorem clearRun_bufIndex (s : State) : (clearRun s).bufIndex = s.bufIndex := rfl
@[simp] theorem clearRun_actStart (s : State) : (clearRun s).actStart = s.actStart := rfl
@[simp] theorem clearRun_actSize (s : State) : (clearRun s).actSize = s.actSize := rfl
@[simp] theorem clearRun_ph (s : State) : (clearRun s).ph = .ls := rfl
@[simp] theorem clearRun_pos (s : State) : (clearRun s).pos = 0#10 := rfl
@[simp] theorem clearRun_bc (s : State) : (clearRun s).bc = 0x00#8 := rfl
@[simp] theorem clearRun_off (s : State) : (clearRun s).off = 0x0000#16 := rfl
@[simp] theorem clearRun_rtype (s : State) : (clearRun s).rtype = 0x00#8 := rfl
@[simp] theorem clearRun_pbuf (s : State) : (clearRun s).pbuf = s.pbuf := rfl
@[simp] theorem clearRun_wbuf (s : State) : (clearRun s).wbuf = s.wbuf := rfl
@[simp] theorem clearRun_pending (s : State) : (clearRun s).pending = s.pending := rfl
@[simp] theorem clearRun_readData (s : State) : (clearRun s).readData = s.readData := rfl

@[simp] theorem acceptWindow_runState (s : State) : (acceptWindow s).runState = .running := rfl
@[simp] theorem acceptWindow_bufValid (s : State) : (acceptWindow s).bufValid = true := rfl
@[simp] theorem acceptWindow_anyHit (s : State) : (acceptWindow s).anyHit = s.anyHit := rfl
@[simp] theorem acceptWindow_termSeen (s : State) : (acceptWindow s).termSeen = s.termSeen := rfl
@[simp] theorem acceptWindow_cmdErr (s : State) : (acceptWindow s).cmdErr = s.cmdErr := rfl
@[simp] theorem acceptWindow_fatal (s : State) : (acceptWindow s).fatal = s.fatal := rfl
@[simp] theorem acceptWindow_winStart (s : State) : (acceptWindow s).winStart = s.winStart := rfl
@[simp] theorem acceptWindow_winSize (s : State) : (acceptWindow s).winSize = s.winSize := rfl
@[simp] theorem acceptWindow_highBase (s : State) : (acceptWindow s).highBase = s.highBase := rfl
@[simp] theorem acceptWindow_crcState (s : State) : (acceptWindow s).crcState = s.crcState := rfl
@[simp] theorem acceptWindow_checksum (s : State) : (acceptWindow s).checksum = s.checksum := rfl
@[simp] theorem acceptWindow_lineCount (s : State) : (acceptWindow s).lineCount = s.lineCount := rfl
@[simp] theorem acceptWindow_lineOutcome (s : State) : (acceptWindow s).lineOutcome = s.lineOutcome := rfl
@[simp] theorem acceptWindow_lineRtype (s : State) : (acceptWindow s).lineRtype = s.lineRtype := rfl
@[simp] theorem acceptWindow_errCount (s : State) : (acceptWindow s).errCount = s.errCount := rfl
@[simp] theorem acceptWindow_errLine (s : State) : (acceptWindow s).errLine = s.errLine := rfl
@[simp] theorem acceptWindow_bufIndex (s : State) : (acceptWindow s).bufIndex = s.bufIndex := rfl
@[simp] theorem acceptWindow_actStart (s : State) : (acceptWindow s).actStart = s.winStart := rfl
@[simp] theorem acceptWindow_actSize (s : State) : (acceptWindow s).actSize = s.winSize := rfl
@[simp] theorem acceptWindow_ph (s : State) : (acceptWindow s).ph = s.ph := rfl
@[simp] theorem acceptWindow_pos (s : State) : (acceptWindow s).pos = s.pos := rfl
@[simp] theorem acceptWindow_bc (s : State) : (acceptWindow s).bc = s.bc := rfl
@[simp] theorem acceptWindow_off (s : State) : (acceptWindow s).off = s.off := rfl
@[simp] theorem acceptWindow_rtype (s : State) : (acceptWindow s).rtype = s.rtype := rfl
@[simp] theorem acceptWindow_pbuf (s : State) : (acceptWindow s).pbuf = s.pbuf := rfl
@[simp] theorem acceptWindow_wbuf (s : State) : (acceptWindow s).wbuf = s.wbuf.eraseBelow s.winSize.toNat := rfl
@[simp] theorem acceptWindow_pending (s : State) : (acceptWindow s).pending = s.pending := rfl
@[simp] theorem acceptWindow_readData (s : State) : (acceptWindow s).readData = s.readData := rfl

@[simp] theorem checksumBuffer_runState (s : State) : (checksumBuffer s).runState = .done := rfl
@[simp] theorem checksumBuffer_bufValid (s : State) : (checksumBuffer s).bufValid = s.bufValid := rfl
@[simp] theorem checksumBuffer_anyHit (s : State) : (checksumBuffer s).anyHit = s.anyHit := rfl
@[simp] theorem checksumBuffer_termSeen (s : State) : (checksumBuffer s).termSeen = s.termSeen := rfl
@[simp] theorem checksumBuffer_cmdErr (s : State) : (checksumBuffer s).cmdErr = s.cmdErr := rfl
@[simp] theorem checksumBuffer_fatal (s : State) : (checksumBuffer s).fatal = s.fatal := rfl
@[simp] theorem checksumBuffer_winStart (s : State) : (checksumBuffer s).winStart = s.winStart := rfl
@[simp] theorem checksumBuffer_winSize (s : State) : (checksumBuffer s).winSize = s.winSize := rfl
@[simp] theorem checksumBuffer_highBase (s : State) : (checksumBuffer s).highBase = s.highBase := rfl
@[simp] theorem checksumBuffer_crcState (s : State) :
    (checksumBuffer s).crcState = crcFeed Config.crcOnes (s.wbuf.bytes s.actSize.toNat) := rfl
@[simp] theorem checksumBuffer_checksum (s : State) :
    (checksumBuffer s).checksum = crc32 (s.wbuf.bytes s.actSize.toNat) := rfl
@[simp] theorem checksumBuffer_lineCount (s : State) : (checksumBuffer s).lineCount = s.lineCount := rfl
@[simp] theorem checksumBuffer_lineOutcome (s : State) : (checksumBuffer s).lineOutcome = s.lineOutcome := rfl
@[simp] theorem checksumBuffer_lineRtype (s : State) : (checksumBuffer s).lineRtype = s.lineRtype := rfl
@[simp] theorem checksumBuffer_errCount (s : State) : (checksumBuffer s).errCount = s.errCount := rfl
@[simp] theorem checksumBuffer_errLine (s : State) : (checksumBuffer s).errLine = s.errLine := rfl
@[simp] theorem checksumBuffer_bufIndex (s : State) : (checksumBuffer s).bufIndex = s.bufIndex := rfl
@[simp] theorem checksumBuffer_actStart (s : State) : (checksumBuffer s).actStart = s.actStart := rfl
@[simp] theorem checksumBuffer_actSize (s : State) : (checksumBuffer s).actSize = s.actSize := rfl
@[simp] theorem checksumBuffer_ph (s : State) : (checksumBuffer s).ph = s.ph := rfl
@[simp] theorem checksumBuffer_pos (s : State) : (checksumBuffer s).pos = s.pos := rfl
@[simp] theorem checksumBuffer_bc (s : State) : (checksumBuffer s).bc = s.bc := rfl
@[simp] theorem checksumBuffer_off (s : State) : (checksumBuffer s).off = s.off := rfl
@[simp] theorem checksumBuffer_rtype (s : State) : (checksumBuffer s).rtype = s.rtype := rfl
@[simp] theorem checksumBuffer_pbuf (s : State) : (checksumBuffer s).pbuf = s.pbuf := rfl
@[simp] theorem checksumBuffer_wbuf (s : State) : (checksumBuffer s).wbuf = s.wbuf := rfl
@[simp] theorem checksumBuffer_pending (s : State) : (checksumBuffer s).pending = s.pending := rfl
@[simp] theorem checksumBuffer_readData (s : State) : (checksumBuffer s).readData = s.readData := rfl

end Sys2Proof.Machine
end

