-- ==== Sys2Proof/Laws/Ops.lean ====
section
/-! SUPPORT. One lemma for each shared operation, saying all it can do; claims cite these and unfold nothing. -/

namespace Sys2Proof.Machine

theorem one_le_maxWindow : 1 ≤ Config.maxWindow := by
  unfold Config.maxWindow; omega

theorem maxWindow_lt : Config.maxWindow < 2 ^ 32 := by
  have := Config.maxWindowPred.isLt
  unfold Config.maxWindow; omega

-- START and the end of a run.

/-- START: rejected with one of three codes, or accepted. -/
theorem startRun_cases (n : Nat) (s : State) :
    (s.winSize.toNat = 0 ∧ startRun n s = fatalError .winZero { clearRun s with bufValid := false })
      ∨ (s.winSize.toNat ≠ 0 ∧ 2 ^ 32 < s.winStart.toNat + s.winSize.toNat
          ∧ startRun n s = fatalError .winOverflow { clearRun s with bufValid := false })
      ∨ (s.winSize.toNat ≠ 0 ∧ s.winStart.toNat + s.winSize.toNat ≤ 2 ^ 32 ∧ n < s.winSize.toNat
          ∧ startRun n s = fatalError .winTooLarge { clearRun s with bufValid := false })
      ∨ (s.winSize.toNat ≠ 0 ∧ s.winStart.toNat + s.winSize.toNat ≤ 2 ^ 32 ∧ s.winSize.toNat ≤ n
          ∧ startRun n s = acceptWindow (clearRun s)) := by
  unfold startRun
  by_cases h0 : s.winSize.toNat = 0
  · exact .inl ⟨h0, by simp [h0]⟩
  by_cases h1 : 2 ^ 32 < s.winStart.toNat + s.winSize.toNat
  · exact .inr (.inl ⟨h0, h1, by simp only [if_neg h0, if_pos h1]⟩)
  by_cases h2 : n < s.winSize.toNat
  · exact .inr (.inr (.inl ⟨h0, by omega, h2, by simp only [if_neg h0, if_neg h1, if_pos h2]⟩))
  · exact .inr (.inr (.inr ⟨h0, by omega, by omega, by simp only [if_neg h0, if_neg h1, if_neg h2]⟩))

/-- finish: the checksum with a hit, EMPTY without. -/
theorem finish_cases (s : State) :
    (s.anyHit = true ∧ finish s = checksumBuffer s) ∨ (s.anyHit = false ∧ finish s = fatalError .empty s) := by
  unfold finish
  cases h : s.anyHit <;> simp

/-- finish writes CRC_STATE, CHECKSUM, STATE and FATAL only. -/
theorem finish_frame (s : State) :
    finish s = { s with
      crcState := (finish s).crcState, checksum := (finish s).checksum
      runState := (finish s).runState, fatal := (finish s).fatal } := by
  rcases finish_cases s with ⟨-, h⟩ | ⟨-, h⟩ <;> rw [h] <;> rfl

@[simp] theorem finish_bufValid (s : State) : (finish s).bufValid = s.bufValid := by rw [finish_frame]
@[simp] theorem finish_anyHit (s : State) : (finish s).anyHit = s.anyHit := by rw [finish_frame]
@[simp] theorem finish_termSeen (s : State) : (finish s).termSeen = s.termSeen := by rw [finish_frame]
@[simp] theorem finish_cmdErr (s : State) : (finish s).cmdErr = s.cmdErr := by rw [finish_frame]
@[simp] theorem finish_winStart (s : State) : (finish s).winStart = s.winStart := by rw [finish_frame]
@[simp] theorem finish_winSize (s : State) : (finish s).winSize = s.winSize := by rw [finish_frame]
@[simp] theorem finish_highBase (s : State) : (finish s).highBase = s.highBase := by rw [finish_frame]
@[simp] theorem finish_lineCount (s : State) : (finish s).lineCount = s.lineCount := by rw [finish_frame]
@[simp] theorem finish_lineOutcome (s : State) : (finish s).lineOutcome = s.lineOutcome := by rw [finish_frame]
@[simp] theorem finish_lineRtype (s : State) : (finish s).lineRtype = s.lineRtype := by rw [finish_frame]
@[simp] theorem finish_errCount (s : State) : (finish s).errCount = s.errCount := by rw [finish_frame]
@[simp] theorem finish_errLine (s : State) : (finish s).errLine = s.errLine := by rw [finish_frame]
@[simp] theorem finish_bufIndex (s : State) : (finish s).bufIndex = s.bufIndex := by rw [finish_frame]
@[simp] theorem finish_actStart (s : State) : (finish s).actStart = s.actStart := by rw [finish_frame]
@[simp] theorem finish_actSize (s : State) : (finish s).actSize = s.actSize := by rw [finish_frame]
@[simp] theorem finish_ph (s : State) : (finish s).ph = s.ph := by rw [finish_frame]
@[simp] theorem finish_pos (s : State) : (finish s).pos = s.pos := by rw [finish_frame]
@[simp] theorem finish_bc (s : State) : (finish s).bc = s.bc := by rw [finish_frame]
@[simp] theorem finish_off (s : State) : (finish s).off = s.off := by rw [finish_frame]
@[simp] theorem finish_rtype (s : State) : (finish s).rtype = s.rtype := by rw [finish_frame]
@[simp] theorem finish_pbuf (s : State) : (finish s).pbuf = s.pbuf := by rw [finish_frame]
@[simp] theorem finish_wbuf (s : State) : (finish s).wbuf = s.wbuf := by rw [finish_frame]
@[simp] theorem finish_pending (s : State) : (finish s).pending = s.pending := by rw [finish_frame]
@[simp] theorem finish_readData (s : State) : (finish s).readData = s.readData := by rw [finish_frame]

theorem finish_runState (s : State) : (finish s).runState = .done ∨ (finish s).runState = .failed := by
  rcases finish_cases s with ⟨-, h⟩ | ⟨-, h⟩ <;> rw [h] <;> simp

-- The assembler.

/-- Placing payload bytes 0 to n - 1 one after another: where each in-window byte is read back, what is untouched, and
that the canonical form is kept. Distinct bytes have distinct addresses while n is at most 2^32. -/
theorem foldl_placePayloadByte (s : State) (w : Memory) (hw : w.wf) (n : Nat) (hn : n ≤ 2 ^ 32) :
    let w' := (List.range n).foldl (placePayloadByte s) w
    Memory.wf w'
      ∧ (∀ i, i < n → payloadHits s i = true → w'.read (windowIndex s (payloadAddr s i)) = s.pbuf.read i)
      ∧ (∀ k, (∀ i, i < n → payloadHits s i = true → k ≠ windowIndex s (payloadAddr s i)) → w'.read k = w.read k)
      ∧ ∀ c ∈ w', c ∈ w ∨ ∃ i, i < n ∧ payloadHits s i = true ∧ c.1 = windowIndex s (payloadAddr s i) := by
  induction n with
  | zero => exact ⟨hw, by omega, fun k _ => rfl, fun c hc => .inl hc⟩
  | succ n ih =>
    obtain ⟨h1, h2, h3, h4⟩ := ih (by omega)
    simp only [List.range_succ, List.foldl_append, List.foldl_cons, List.foldl_nil]
    generalize (List.range n).foldl (placePayloadByte s) w = v at *
    unfold placePayloadByte
    by_cases hin : payloadHits s n = true
    · have hin' : inWindow s (payloadAddr s n) = true := hin
      simp only [hin', if_true]
      refine ⟨Memory.write_wf h1 _ _, ?_, ?_, ?_⟩
      · intro i hi hh
        rw [Memory.read_write h1]
        by_cases hin2 : i = n
        · subst hin2; simp
        · rw [if_neg, h2 i (by omega) hh]
          intro he
          have hh' : inWindow s (payloadAddr s i) = true := hh
          simp only [inWindow, Bool.and_eq_true, decide_eq_true_eq] at hin' hh'
          simp only [windowIndex] at he
          have : payloadAddr s i = payloadAddr s n := BitVec.eq_of_toNat_eq (by omega)
          simp only [payloadAddr, BitVec.add_right_inj] at this
          have := congrArg BitVec.toNat this
          simp only [BitVec.toNat_ofNat] at this
          omega
      · intro k hk
        rw [Memory.read_write h1, if_neg (hk n (by omega) hin), h3 k fun i hi => hk i (by omega)]
      · intro c hc
        rcases Memory.mem_write hc with hc | hc
        · rcases h4 c hc with hc | ⟨i, hi, hh⟩
          · exact .inl hc
          · exact .inr ⟨i, by omega, hh⟩
        · exact .inr ⟨n, by omega, hin, hc⟩
    · have hin' : ¬ inWindow s (payloadAddr s n) = true := hin
      simp only [if_neg hin']
      refine ⟨h1, ?_, ?_, ?_⟩
      · intro i hi hh
        exact h2 i (by rcases Nat.lt_succ_iff_lt_or_eq.1 hi with h | rfl; exacts [h, absurd hh hin]) hh
      · exact fun k hk => h3 k fun i hi => hk i (by omega)
      · intro c hc
        rcases h4 c hc with hc | ⟨i, hi, hh⟩
        · exact .inl hc
        · exact .inr ⟨i, by omega, hh⟩

/-- Without a hit a Data record leaves WBUF as it is. -/
theorem foldl_placePayloadByte_no_hit (s : State) (w : Memory) (l : List Nat) (h : ∀ i ∈ l, payloadHits s i = false) :
    l.foldl (placePayloadByte s) w = w := by
  induction l with
  | nil => rfl
  | cons i l ih =>
    have hi : inWindow s (payloadAddr s i) = false := h i (by simp)
    rw [List.foldl_cons]
    have : placePayloadByte s w i = w := by unfold placePayloadByte; simp [hi]
    rw [this, ih fun j hj => h j (by simp [hj])]

/-- The target address of payload byte i as a natural number. -/
theorem payloadAddr_toNat (s : State) (i : Nat) :
    (payloadAddr s i).toNat = (s.highBase.toNat + s.off.toNat + i) % 2 ^ 32 := by
  simp only [payloadAddr, BitVec.toNat_add, BitVec.toNat_setWidth, BitVec.toNat_ofNat]
  have := s.off.isLt
  omega

theorem payloadHits_iff (s : State) (i : Nat) :
    payloadHits s i = true ↔ s.actStart.toNat ≤ (s.highBase.toNat + s.off.toNat + i) % 2 ^ 32
      ∧ (s.highBase.toNat + s.off.toNat + i) % 2 ^ 32 < s.actStart.toNat + s.actSize.toNat := by
  simp [payloadHits, inWindow, payloadAddr_toNat]

/-- What commit does, by the type. -/
theorem commit_cases (s : State) :
    (s.rtype = 0x00#8 ∧ commit s = commitData s) ∨ (s.rtype = 0x01#8 ∧ commit s = commitEof s)
      ∨ (s.rtype = 0x04#8 ∧ commit s = commitEla s)
      ∨ ((s.rtype ≠ 0x00#8 ∧ s.rtype ≠ 0x01#8 ∧ s.rtype ≠ 0x04#8) ∧ commit s = commitIgnored s.rtype s) := by
  unfold commit decodeRecordType
  by_cases h0 : s.rtype = 0x00#8
  · simp [h0]
  by_cases h1 : s.rtype = 0x01#8
  · simp [h1]
  by_cases h4 : s.rtype = 0x04#8
  · simp [h4]
  simp [h0, h1, h4]

/-- commit is the meaning of the record's row. -/
theorem exec_recordInstr (s : State) (t : Byte) (h : t = s.rtype) : exec (recordInstr t) s = .next (commit s) := by
  subst h
  unfold recordInstr commit
  cases decodeRecordType s.rtype <;> rfl

theorem commitEla_cases (s : State) :
    (s.bc.toNat < 2 ∧ commitEla s = lineError .elaShort s)
      ∨ (2 ≤ s.bc.toNat ∧ commitEla s = setLine .ela 0x04#8 { s with highBase := elaBase s }) := by
  unfold commitEla
  by_cases h : s.bc.toNat < 2
  · exact .inl ⟨h, by simp [h]⟩
  · exact .inr ⟨by omega, by simp [h]⟩

/-- What no commit and no line end touches. -/
theorem commit_frame (s : State) :
    commit s = { s with
      runState := (commit s).runState, anyHit := (commit s).anyHit, termSeen := (commit s).termSeen
      fatal := (commit s).fatal, highBase := (commit s).highBase, crcState := (commit s).crcState
      checksum := (commit s).checksum, lineOutcome := (commit s).lineOutcome, lineRtype := (commit s).lineRtype
      errCount := (commit s).errCount, errLine := (commit s).errLine, wbuf := (commit s).wbuf } := by
  rcases commit_cases s with ⟨-, h⟩ | ⟨-, h⟩ | ⟨-, h⟩ | ⟨-, h⟩
  · rw [h]; rfl
  · rw [h, commitEof, finish_frame]; rfl
  · rw [h]; rcases commitEla_cases s with ⟨-, h⟩ | ⟨-, h⟩ <;> rw [h] <;> rfl
  · rw [h]; rfl

/-- The end of a line, by phase. -/
theorem endOfLine_cases (s : State) :
    let c : State := { s with lineCount := s.lineCount + 1#32 }
    ((s.ph = .ls ∨ s.ph = .skip) ∧ endOfLine s = { setLine .skipped 0x00#8 c with ph := .ls, pos := 0#10 })
      ∨ ((s.ph = .hdr ∨ s.ph = .pay) ∧ endOfLine s = { lineError .truncated c with ph := .ls, pos := 0#10 })
      ∨ (s.ph = .bad ∧ endOfLine s = { lineError .badHex c with ph := .ls, pos := 0#10 })
      ∨ (s.ph = .trl ∧ endOfLine s = { commit c with ph := .ls, pos := 0#10 }) := by
  unfold endOfLine closeLine
  cases h : s.ph <;> simp

/-- What a line end never touches. -/
theorem endOfLine_frame (s : State) :
    endOfLine s = { s with
      runState := (endOfLine s).runState, anyHit := (endOfLine s).anyHit, termSeen := (endOfLine s).termSeen
      fatal := (endOfLine s).fatal, highBase := (endOfLine s).highBase, crcState := (endOfLine s).crcState
      checksum := (endOfLine s).checksum, lineCount := s.lineCount + 1#32
      lineOutcome := (endOfLine s).lineOutcome, lineRtype := (endOfLine s).lineRtype
      errCount := (endOfLine s).errCount, errLine := (endOfLine s).errLine, wbuf := (endOfLine s).wbuf
      ph := .ls, pos := 0#10 } := by
  rcases endOfLine_cases s with ⟨-, h⟩ | ⟨-, h⟩ | ⟨-, h⟩ | ⟨-, h⟩
  · rw [h]; rfl
  · rw [h]; rfl
  · rw [h]; rfl
  · rw [h, commit_frame]

@[simp] theorem endOfLine_bufValid (s : State) : (endOfLine s).bufValid = s.bufValid := by rw [endOfLine_frame]
@[simp] theorem endOfLine_cmdErr (s : State) : (endOfLine s).cmdErr = s.cmdErr := by rw [endOfLine_frame]
@[simp] theorem endOfLine_winStart (s : State) : (endOfLine s).winStart = s.winStart := by rw [endOfLine_frame]
@[simp] theorem endOfLine_winSize (s : State) : (endOfLine s).winSize = s.winSize := by rw [endOfLine_frame]
@[simp] theorem endOfLine_bufIndex (s : State) : (endOfLine s).bufIndex = s.bufIndex := by rw [endOfLine_frame]
@[simp] theorem endOfLine_actStart (s : State) : (endOfLine s).actStart = s.actStart := by rw [endOfLine_frame]
@[simp] theorem endOfLine_actSize (s : State) : (endOfLine s).actSize = s.actSize := by rw [endOfLine_frame]
@[simp] theorem endOfLine_bc (s : State) : (endOfLine s).bc = s.bc := by rw [endOfLine_frame]
@[simp] theorem endOfLine_off (s : State) : (endOfLine s).off = s.off := by rw [endOfLine_frame]
@[simp] theorem endOfLine_rtype (s : State) : (endOfLine s).rtype = s.rtype := by rw [endOfLine_frame]
@[simp] theorem endOfLine_pbuf (s : State) : (endOfLine s).pbuf = s.pbuf := by rw [endOfLine_frame]
@[simp] theorem endOfLine_pending (s : State) : (endOfLine s).pending = s.pending := by rw [endOfLine_frame]
@[simp] theorem endOfLine_readData (s : State) : (endOfLine s).readData = s.readData := by rw [endOfLine_frame]
@[simp] theorem endOfLine_ph (s : State) : (endOfLine s).ph = .ls := by rw [endOfLine_frame]
@[simp] theorem endOfLine_pos (s : State) : (endOfLine s).pos = 0#10 := by rw [endOfLine_frame]
@[simp] theorem endOfLine_lineCount (s : State) : (endOfLine s).lineCount = s.lineCount + 1#32 := by
  rw [endOfLine_frame]

/-- Everything a line end can have done: only a report (and a line error's two counters), or one of the three commits
with an effect. -/
theorem endOfLine_effect (s : State) :
    (∃ o r ec el, endOfLine s = { s with
        lineCount := s.lineCount + 1#32, lineOutcome := o, lineRtype := r, errCount := ec, errLine := el
        ph := .ls, pos := 0#10 }
      ∧ ((ec = s.errCount ∧ el = s.errLine) ∨ (ec = s.errCount + 1#32 ∧ el = s.lineCount + 1#32)))
    ∨ (s.ph = .trl ∧ s.rtype = 0x00#8 ∧ endOfLine s = { s with
        lineCount := s.lineCount + 1#32, lineOutcome := .data, lineRtype := 0x00#8, ph := .ls, pos := 0#10
        wbuf := (List.range s.bc.toNat).foldl (placePayloadByte s) s.wbuf
        anyHit := s.anyHit || (List.range s.bc.toNat).any (payloadHits s) })
    ∨ (s.ph = .trl ∧ s.rtype = 0x04#8 ∧ 2 ≤ s.bc.toNat ∧ endOfLine s = { s with
        lineCount := s.lineCount + 1#32, lineOutcome := .ela, lineRtype := 0x04#8, highBase := elaBase s
        ph := .ls, pos := 0#10 })
    ∨ (s.ph = .trl ∧ s.rtype = 0x01#8 ∧ endOfLine s = finish { s with
        lineCount := s.lineCount + 1#32, lineOutcome := .eof, lineRtype := 0x01#8, termSeen := true
        ph := .ls, pos := 0#10 }) := by
  have hfin : ∀ u : State, { finish u with ph := .ls, pos := 0#10 } = finish { u with ph := .ls, pos := 0#10 } := by
    intro u; unfold finish; split <;> rfl
  rcases endOfLine_cases s with ⟨-, h⟩ | ⟨-, h⟩ | ⟨-, h⟩ | ⟨hp, h⟩
  · exact .inl ⟨_, _, _, _, h, .inl ⟨rfl, rfl⟩⟩
  · exact .inl ⟨_, _, _, _, h, .inr ⟨rfl, rfl⟩⟩
  · exact .inl ⟨_, _, _, _, h, .inr ⟨rfl, rfl⟩⟩
  · rcases commit_cases { s with lineCount := s.lineCount + 1#32 } with ⟨ht, hc⟩ | ⟨ht, hc⟩ | ⟨ht, hc⟩ | ⟨-, hc⟩ <;>
      rw [hc] at h
    · exact .inr (.inl ⟨hp, ht, h⟩)
    · exact .inr (.inr (.inr ⟨hp, ht, by rw [h, commitEof, hfin]; rfl⟩))
    · rcases commitEla_cases { s with lineCount := s.lineCount + 1#32 } with ⟨-, he⟩ | ⟨hb, he⟩ <;> rw [he] at h
      · exact .inl ⟨_, _, _, _, h, .inr ⟨rfl, rfl⟩⟩
      · exact .inr (.inr (.inl ⟨hp, ht, hb, h⟩))
    · exact .inl ⟨_, _, _, _, h, .inl ⟨rfl, rfl⟩⟩

-- CHAR and EOI.

/-- CHAR, by the run state and the character. -/
theorem execChar_cases (c : Byte) (s : State) :
    (s.runState = .idle ∧ execChar c s = .next (cmdError s))
      ∨ ((s.runState = .done ∨ s.runState = .failed) ∧ execChar c s = .next s)
      ∨ (s.runState = .running ∧ c = 0x0D#8 ∧ execChar c s = .next s)
      ∨ (s.runState = .running ∧ c = 0x0A#8 ∧ execChar c s = .next (endOfLine s))
      ∨ (s.runState = .running ∧ c ≠ 0x0D#8 ∧ c ≠ 0x0A#8 ∧ execChar c s = parseChar c s) := by
  unfold execChar
  cases h : s.runState
  · simp
  · by_cases h1 : c = 0x0D#8
    · simp [h1]
    by_cases h2 : c = 0x0A#8
    · simp [h2]
    · simp [h1, h2]
  · simp
  · simp

/-- A payload character: a bad digit, a digit taken in, or a digit PBUF has no byte for. -/
theorem parsePayload_cases (c : Byte) (s : State) :
    (isHex c = false ∧ parsePayload c s = .next { s with ph := .bad })
      ∨ (isHex c = true ∧ payloadIndex s.pos < Config.payloadCapacity ∧ parsePayload c s = .next { s with
          pbuf := s.pbuf.write (payloadIndex s.pos)
            (payloadByte s.pos (s.pbuf.read (payloadIndex s.pos)) (hexVal c))
          pos := s.pos + 1#10, ph := payloadPhase s })
      ∨ (isHex c = true ∧ Config.payloadCapacity ≤ payloadIndex s.pos
          ∧ parsePayload c s = .fault (.noPayloadByte (payloadIndex s.pos))) := by
  unfold parsePayload
  cases isHex c
  · simp
  · by_cases h : payloadIndex s.pos < Config.payloadCapacity
    · simp [h]
    · simp [h]; omega

/-- A header character: a bad digit, or a digit taken in. -/
theorem parseHeader_cases (c : Byte) (s : State) :
    (isHex c = false ∧ parseHeader c s = { s with ph := .bad })
      ∨ (isHex c = true ∧ parseHeader c s =
          { pushHeaderDigit s.pos.toNat (hexVal c) s with pos := s.pos + 1#10, ph := headerPhase s }) := by
  unfold parseHeader
  cases isHex c <;> simp

/-- A header digit goes into one of the three fields. -/
theorem pushHeaderDigit_cases (p : Nat) (d : BitVec 4) (s : State) :
    (p ≤ 1 ∧ pushHeaderDigit p d s = { s with bc := pushDigit8 s.bc d })
      ∨ (2 ≤ p ∧ p ≤ 5 ∧ pushHeaderDigit p d s = { s with off := pushDigit16 s.off d })
      ∨ (6 ≤ p ∧ pushHeaderDigit p d s = { s with rtype := pushDigit8 s.rtype d }) := by
  unfold pushHeaderDigit
  by_cases h1 : p ≤ 1
  · exact .inl ⟨h1, by simp [h1]⟩
  by_cases h2 : p ≤ 5
  · exact .inr (.inl ⟨by omega, h2, by simp [h1, h2]⟩)
  · exact .inr (.inr ⟨by omega, by simp [h1, h2]⟩)

/-- parse_char writes only the parser's elements. -/
theorem parseChar_frame {c : Byte} {s t : State} (h : parseChar c s = .next t) :
    t = { s with ph := t.ph, pos := t.pos, bc := t.bc, off := t.off, rtype := t.rtype, pbuf := t.pbuf } := by
  unfold parseChar at h
  cases hp : s.ph <;> simp only [hp, Host.Outcome.next.injEq] at h
  · subst h; unfold parseLineStart; split <;> rfl
  · subst h; rfl
  · subst h
    rcases parseHeader_cases c s with ⟨-, h⟩ | ⟨-, h⟩ <;> rw [h]
    rcases pushHeaderDigit_cases s.pos.toNat (hexVal c) s with ⟨-, h⟩ | ⟨-, -, h⟩ | ⟨-, h⟩ <;> rw [h]
  · rcases parsePayload_cases c s with ⟨-, h'⟩ | ⟨-, -, h'⟩ | ⟨-, -, h'⟩ <;> rw [h'] at h <;>
      simp only [Host.Outcome.next.injEq, reduceCtorEq] at h <;> subst h <;> rfl
  · subst h; rfl
  · subst h; rfl

/-- EOI, by the run state. -/
theorem execEoi_cases (s : State) :
    (s.runState = .idle ∧ execEoi s = .next (cmdError s))
      ∨ ((s.runState = .done ∨ s.runState = .failed) ∧ execEoi s = .next s)
      ∨ (s.runState = .running ∧ s.ph = .ls ∧ execEoi s = .next (finish s))
      ∨ (s.runState = .running ∧ s.ph ≠ .ls ∧ execEoi s = .next (finishIfRunning (endOfLine s))) := by
  unfold execEoi endPendingLine
  cases h : s.runState
  · simp
  · by_cases hp : s.ph = .ls <;> simp [hp, finishIfRunning, h]
  · simp
  · simp

/-- A finish only in RUNNING. -/
theorem finishIfRunning_cases (s : State) :
    (s.runState = .running ∧ finishIfRunning s = finish s) ∨ (s.runState ≠ .running ∧ finishIfRunning s = s) := by
  unfold finishIfRunning
  by_cases h : s.runState = .running <;> simp [h]

-- The step.

/-- A write to CMD is the meaning of its command's row. -/
theorem exec_wrCmd (w : Word) (s : State) : exec (.wrCmd w) s = exec (commandInstr (decodeCommand w)) s := by
  show execWrCmd w s = _
  unfold execWrCmd
  cases decodeCommand w <;> rfl

/-- Every read answers some value and changes nothing else. -/
theorem exec_read {a : Access} {i : Instr} (h : decodeAccess a = .ok i) (hd : a.dir = .read) (s : State) :
    ∃ v, exec i s = .next { s with readData := v } := by
  have := decodeAccess_read h hd
  simp only [List.mem_cons, List.not_mem_nil, or_false] at this
  rcases this with rfl | rfl | rfl | rfl | rfl | rfl | rfl | rfl | rfl | rfl | rfl | rfl | rfl | rfl | rfl | rfl <;>
    exact ⟨_, rfl⟩

/-- Everything a step that answers can have done. -/
theorem step_cases {s t : State} (h : step s = .next t) :
    (s.pending = [] ∧ t = s)
      ∨ ∃ a rest, s.pending = a :: rest ∧
        ((a.dir = .read ∧ ∃ v, t = { s with pending := rest, readData := v })
          ∨ (a = writeAccess 0x08#6 a.data ∧ t = { s with pending := rest, winStart := a.data })
          ∨ (a = writeAccess 0x0C#6 a.data ∧ t = { s with pending := rest, winSize := a.data })
          ∨ (a = writeAccess 0x30#6 a.data ∧ t = { s with pending := rest, bufIndex := a.data })
          ∨ (a.dir = .write ∧ t = { s with pending := rest })
          ∨ ∃ c, commandOf a = some c ∧ exec (commandInstr c) { s with pending := rest } = .next t) := by
  unfold step takeAccess at h
  cases hp : s.pending with
  | nil => rw [hp] at h; simp at h; exact .inl ⟨rfl, h.symm⟩
  | cons a rest =>
    rw [hp] at h
    refine .inr ⟨a, rest, rfl, ?_⟩
    simp only at h
    cases hd : decodeAccess a with
    | error e => rw [hd] at h; simp at h
    | ok i =>
      rw [hd] at h
      simp only at h
      cases hdir : a.dir with
      | read =>
        obtain ⟨v, hv⟩ := exec_read hd hdir { s with pending := rest }
        rw [hv] at h
        exact .inl ⟨rfl, v, by simpa [eq_comm] using h⟩
      | write =>
        have hne : ∀ o : BitVec 6, a.width = .w32 → a.offset = (o.toNat : Int) → a = writeAccess o a.data := by
          intro o hw ho; cases a; simp_all [writeAccess]
        obtain ⟨hw, ⟨ho, rfl⟩ | ⟨ho, rfl⟩ | ⟨ho, rfl⟩ | ⟨ho, rfl⟩ | ⟨o, ho, rfl⟩⟩ := decodeAccess_write hd hdir
        · refine .inr (.inr (.inr (.inr (.inr ⟨decodeCommand a.data, ?_, ?_⟩))))
          · simp [commandOf, hw, hdir, ho]
          · rw [← exec_wrCmd]; exact h
        · exact .inr (.inl ⟨hne _ hw ho, by simpa [exec, execWrWinStart, eq_comm] using h⟩)
        · exact .inr (.inr (.inl ⟨hne _ hw ho, by simpa [exec, execWrWinSize, eq_comm] using h⟩))
        · exact .inr (.inr (.inr (.inl ⟨hne _ hw ho, by simpa [exec, execWrBufIndex, eq_comm] using h⟩)))
        · exact .inr (.inr (.inr (.inr (.inl ⟨rfl, by simpa [exec, execWrIgnored, eq_comm] using h⟩))))

/-- Everything a command that answers can have done, one case for each shape of effect. -/
theorem command_effect {c : Command} {s t : State} (h : exec (commandInstr c) s = .next t) :
    t = s
      ∨ (t = cmdError s ∧ ((∃ w, c = .illegal w) ∨ (s.runState = .idle ∧ ((∃ b, c = .char b) ∨ c = .eoi))))
      ∨ (c = .reset ∧ t = resetBlock s)
      ∨ (c = .start ∧ t = startRun Config.maxWindow s)
      ∨ (((c = .crcInit ∧ t.crcState = Config.crcOnes)
            ∨ ∃ b, c = .crcByte b ∧ t.crcState = crcUpdate s.crcState b)
          ∧ t = { s with crcState := t.crcState })
      ∨ (∃ b, c = .char b ∧ s.runState = .running ∧ parseChar b s = .next t)
      ∨ (s.runState = .running ∧ t = endOfLine s
          ∧ (c = .char 0x0A#8 ∨ (c = .eoi ∧ s.ph ≠ .ls ∧ (endOfLine s).runState ≠ .running)))
      ∨ (s.runState = .running ∧ c = .eoi ∧ s.ph = .ls ∧ t = finish s)
      ∨ (s.runState = .running ∧ c = .eoi ∧ s.ph ≠ .ls ∧ (endOfLine s).runState = .running
          ∧ t = finish (endOfLine s)) := by
  cases c with
  | nop => exact .inl (by simpa [commandInstr, exec, execNop, eq_comm] using h)
  | illegal w => exact .inr (.inl ⟨by simpa [commandInstr, exec, execIllegal, eq_comm] using h, .inl ⟨w, rfl⟩⟩)
  | reset => exact .inr (.inr (.inl ⟨rfl, by simpa [commandInstr, exec, execReset, eq_comm] using h⟩))
  | start => exact .inr (.inr (.inr (.inl ⟨rfl, by simpa [commandInstr, exec, execStart, eq_comm] using h⟩)))
  | crcInit =>
    have h : { s with crcState := Config.crcOnes } = t := by simpa [commandInstr, exec, execCrcInit] using h
    exact .inr (.inr (.inr (.inr (.inl ⟨.inl ⟨rfl, by rw [← h]⟩, by rw [← h]⟩))))
  | crcByte b =>
    have h : { s with crcState := crcUpdate s.crcState b } = t := by
      simpa [commandInstr, exec, execCrcByte] using h
    exact .inr (.inr (.inr (.inr (.inl ⟨.inr ⟨b, rfl, by rw [← h]⟩, by rw [← h]⟩))))
  | char b =>
    have h : execChar b s = .next t := h
    rcases execChar_cases b s with ⟨hr, he⟩ | ⟨-, he⟩ | ⟨-, -, he⟩ | ⟨hr, rfl, he⟩ | ⟨hr, -, -, he⟩ <;>
      rw [he] at h
    · exact .inr (.inl ⟨by simpa [eq_comm] using h, .inr ⟨hr, .inl ⟨b, rfl⟩⟩⟩)
    · exact .inl (by simpa [eq_comm] using h)
    · exact .inl (by simpa [eq_comm] using h)
    · exact .inr (.inr (.inr (.inr (.inr (.inr (.inl ⟨hr, by simpa [eq_comm] using h, .inl rfl⟩))))))
    · exact .inr (.inr (.inr (.inr (.inr (.inl ⟨b, rfl, hr, h⟩)))))
  | eoi =>
    have h : execEoi s = .next t := h
    rcases execEoi_cases s with ⟨hr, he⟩ | ⟨-, he⟩ | ⟨hr, hp, he⟩ | ⟨hr, hp, he⟩ <;>
      rw [he] at h
    · exact .inr (.inl ⟨by simpa [eq_comm] using h, .inr ⟨hr, .inr rfl⟩⟩)
    · exact .inl (by simpa [eq_comm] using h)
    · exact .inr (.inr (.inr (.inr (.inr (.inr (.inr (.inl ⟨hr, rfl, hp, by simpa [eq_comm] using h⟩)))))))
    · rcases finishIfRunning_cases (endOfLine s) with ⟨h1, h2⟩ | ⟨h1, h2⟩ <;> rw [h2] at h
      · exact .inr (.inr (.inr (.inr (.inr (.inr (.inr (.inr
          ⟨hr, rfl, hp, h1, by simpa [eq_comm] using h⟩)))))))
      · exact .inr (.inr (.inr (.inr (.inr (.inr (.inl
          ⟨hr, by simpa [eq_comm] using h, .inr ⟨rfl, hp, h1⟩⟩))))))

end Sys2Proof.Machine
end

