-- ==== Sys2Proof/Laws/PerInstr.lean ====
section
/-! SUPPORT. The per-instruction family DecodesWellFormed: whatever the decoder reads as an instruction has operands its
encoding admits. -/

namespace Sys2Proof.Laws.DecodesWellFormed

/-- Every encoding the decoder reads as `i` makes `i` well-formed. -/
def Statement (i : Instr) : Prop :=
  ∀ e : Encoding, decode e = .ok i → i.wellFormed = true

theorem nop : Statement .nop := fun _ h => decode_wellFormed h
theorem reset : Statement .reset := fun _ h => decode_wellFormed h
theorem start : Statement .start := fun _ h => decode_wellFormed h
theorem char (c : Byte) : Statement (.char c) := fun _ h => decode_wellFormed h
theorem eoi : Statement .eoi := fun _ h => decode_wellFormed h
theorem crcInit : Statement .crcInit := fun _ h => decode_wellFormed h
theorem crcByte (b : Byte) : Statement (.crcByte b) := fun _ h => decode_wellFormed h
theorem illegal (w : Word) : Statement (.illegal w) := fun _ h => decode_wellFormed h
theorem recData : Statement .recData := fun _ h => decode_wellFormed h
theorem recEof : Statement .recEof := fun _ h => decode_wellFormed h
theorem recEla : Statement .recEla := fun _ h => decode_wellFormed h
theorem recIgnored (t : Byte) : Statement (.recIgnored t) := fun _ h => decode_wellFormed h
theorem rdCmd : Statement .rdCmd := fun _ h => decode_wellFormed h
theorem rdStatus : Statement .rdStatus := fun _ h => decode_wellFormed h
theorem rdWinStart : Statement .rdWinStart := fun _ h => decode_wellFormed h
theorem rdWinSize : Statement .rdWinSize := fun _ h => decode_wellFormed h
theorem rdHighBase : Statement .rdHighBase := fun _ h => decode_wellFormed h
theorem rdCrcState : Statement .rdCrcState := fun _ h => decode_wellFormed h
theorem rdCrcResult : Statement .rdCrcResult := fun _ h => decode_wellFormed h
theorem rdChecksum : Statement .rdChecksum := fun _ h => decode_wellFormed h
theorem rdLineCount : Statement .rdLineCount := fun _ h => decode_wellFormed h
theorem rdLineResult : Statement .rdLineResult := fun _ h => decode_wellFormed h
theorem rdErrCount : Statement .rdErrCount := fun _ h => decode_wellFormed h
theorem rdErrLine : Statement .rdErrLine := fun _ h => decode_wellFormed h
theorem rdBufIndex : Statement .rdBufIndex := fun _ h => decode_wellFormed h
theorem rdBufData : Statement .rdBufData := fun _ h => decode_wellFormed h
theorem rdParseState : Statement .rdParseState := fun _ h => decode_wellFormed h
theorem rdMaxWindow : Statement .rdMaxWindow := fun _ h => decode_wellFormed h
theorem wrCmd (w : Word) : Statement (.wrCmd w) := fun _ h => decode_wellFormed h
theorem wrWinStart (w : Word) : Statement (.wrWinStart w) := fun _ h => decode_wellFormed h
theorem wrWinSize (w : Word) : Statement (.wrWinSize w) := fun _ h => decode_wellFormed h
theorem wrBufIndex (w : Word) : Statement (.wrBufIndex w) := fun _ h => decode_wellFormed h
theorem wrIgnored (o : BitVec 6) (w : Word) : Statement (.wrIgnored o w) := fun _ h => decode_wellFormed h

end Sys2Proof.Laws.DecodesWellFormed
end

