-- ==== Sys2Proof/Tests/Slice0.lean ====
section
/-! SUPPORT. Tests of one step each, with results from 95_test_vectors, and for every statement with hypotheses a
concrete state that meets them. -/

namespace Sys2Proof.Tests

open Sys2Proof Sys2Proof.Machine Sys2Proof.Claims

/-- The next state, where there is one. -/
def after : Host.Outcome State Fault Refusal → Option State
  | .next t => some t
  | .fault _ => none
  | .refused _ => none

/-- A register of the state an instruction leads to. -/
def seen {α : Type} (view : State → α) (i : Instr) (s : State) : Option α :=
  (after (exec i s)).map view

/-- `R()` of 95: right after reset and `RUN 0x00000000, 0x8`. -/
def running : State :=
  { State.reset with winSize := 8#32, actSize := 8#32, bufValid := true, runState := .running }

/-- A run of a one-byte window in parser phase `ph`. -/
def small (ph : Phase) (pos : BitVec 10) (bc : Byte) : State :=
  { State.reset with
    winSize := 1#32, actSize := 1#32, bufValid := true, runState := .running, ph := ph, pos := pos, bc := bc }

/-- A run of a one-byte window that ended in DONE with the byte 0x61. -/
def finishedRun : State :=
  { State.reset with
    winSize := 1#32, actSize := 1#32, bufValid := true, runState := .done, anyHit := true
    wbuf := [(0, 0x61#8)], checksum := 0xE8B7BE43#32, crcState := 0x174841BC#32 }

/-- A run that ended in FAILED with EMPTY. -/
def emptyRun : State :=
  { State.reset with winSize := 1#32, actSize := 1#32, bufValid := true, runState := .failed, fatal := .empty }

/-- A state whose next access is `a`. -/
def facing (a : Access) (s : State) : State := { s with pending := [a] }

/-- The write of command `op` with argument `arg`. -/
def cmd (op arg : Byte) : Access := writeAccess 0x00#6 (commandWord op arg)

-- WellFormed: one ill-formed term for each check, and the boundary of each that is well formed.

theorem test_wellFormed_illegal :
    Instr.wellFormed (.illegal 0x00000000#32) = false ∧ Instr.wellFormed (.illegal 0x030000FF#32) = false
      ∧ Instr.wellFormed (.illegal 0x06000000#32) = false ∧ Instr.wellFormed (.illegal 0x07000000#32) = true
      ∧ Instr.wellFormed (.illegal 0x00000100#32) = true ∧ Instr.wellFormed (.illegal 0x00000001#32) = true := by
  decide

theorem test_wellFormed_recIgnored :
    Instr.wellFormed (.recIgnored 0x00#8) = false ∧ Instr.wellFormed (.recIgnored 0x01#8) = false
      ∧ Instr.wellFormed (.recIgnored 0x04#8) = false ∧ Instr.wellFormed (.recIgnored 0xFF#8) = true := by
  decide

theorem test_wellFormed_wrIgnored :
    Instr.wellFormed (.wrIgnored 0x08#6 0#32) = false ∧ Instr.wellFormed (.wrIgnored 0x06#6 0#32) = false
      ∧ Instr.wellFormed (.wrIgnored 0x3C#6 0xFFFFFFFF#32) = true := by
  decide

-- Decoding: each constructor's word written out from 30_encoding R92, R100 and R107.

theorem test_decode_commands :
    decodeTableWord 32 0b00000000000000000000000000000000 = some .nop
      ∧ decodeTableWord 32 0b00000001000000000000000000000000 = some .reset
      ∧ decodeTableWord 32 0b00000010000000000000000000000000 = some .start
      ∧ decodeTableWord 32 0b00000011000000000000000001000111 = some (.char 0x47#8)
      ∧ decodeTableWord 32 0b00000100000000000000000000000000 = some .eoi
      ∧ decodeTableWord 32 0b00000101000000000000000000000000 = some .crcInit
      ∧ decodeTableWord 32 0b00000110000000000000000000110001 = some (.crcByte 0x31#8) := by
  decide

theorem test_decode_illegal :
    decodeTableWord 32 0b00000111000000000000000000000000 = some (.illegal 0x07000000#32)
      ∧ decodeTableWord 32 0b00000011000000010000000001000001 = some (.illegal 0x03010041#32)
      ∧ decodeTableWord 32 0b00000101000000000000000000000001 = some (.illegal 0x05000001#32) := by
  decide

theorem test_decode_records :
    decode (.recordType 0b00000000#8) = .ok .recData ∧ decode (.recordType 0b00000001#8) = .ok .recEof
      ∧ decode (.recordType 0b00000100#8) = .ok .recEla
      ∧ decode (.recordType 0b00000010#8) = .ok (.recIgnored 0x02#8)
      ∧ decode (.recordType 0b11111111#8) = .ok (.recIgnored 0xFF#8) :=
  ⟨rfl, rfl, rfl, rfl, rfl⟩

theorem test_decode_reads :
    decodeTableWord 8 0b0000000 = some .rdCmd ∧ decodeTableWord 8 0b0000100 = some .rdStatus
      ∧ decodeTableWord 8 0b0001000 = some .rdWinStart ∧ decodeTableWord 8 0b0001100 = some .rdWinSize
      ∧ decodeTableWord 8 0b0010000 = some .rdHighBase ∧ decodeTableWord 8 0b0010100 = some .rdCrcState
      ∧ decodeTableWord 8 0b0011000 = some .rdCrcResult ∧ decodeTableWord 8 0b0011100 = some .rdChecksum
      ∧ decodeTableWord 8 0b0100000 = some .rdLineCount ∧ decodeTableWord 8 0b0100100 = some .rdLineResult
      ∧ decodeTableWord 8 0b0101000 = some .rdErrCount ∧ decodeTableWord 8 0b0101100 = some .rdErrLine
      ∧ decodeTableWord 8 0b0110000 = some .rdBufIndex ∧ decodeTableWord 8 0b0110100 = some .rdBufData
      ∧ decodeTableWord 8 0b0111000 = some .rdParseState ∧ decodeTableWord 8 0b0111100 = some .rdMaxWindow := by
  decide

/-- A write's data stands in the four bytes after its offset byte. -/
theorem test_decode_writes :
    decodeTableWord 40 0x0200000040 = some (.wrCmd 0x02000000#32)
      ∧ decodeTableWord 40 0x0800000048 = some (.wrWinStart 0x08000000#32)
      ∧ decodeTableWord 40 0x000000084C = some (.wrWinSize 0x00000008#32)
      ∧ decodeTableWord 40 0xFFFFFFFF70 = some (.wrBufIndex 0xFFFFFFFF#32)
      ∧ decodeTableWord 40 0x000000055C = some (.wrIgnored 0x1C#6 0x00000005#32)
      ∧ decodeTableWord 8 0b1000000 = some (.wrCmd 0#32) := by
  decide

/-- 20_memory R62. -/
theorem test_bad_accesses :
    decodeAccess { dir := .read, width := .w16, offset := 4, data := 0#32 } = .error .width
      ∧ decodeAccess { dir := .write, width := .w32, offset := 0x40, data := 0#32 } = .error .outsideWindow
      ∧ decodeAccess { dir := .read, width := .w32, offset := -4, data := 0#32 } = .error .outsideWindow
      ∧ decodeAccess { dir := .read, width := .w32, offset := 6, data := 0#32 } = .error .misaligned :=
  ⟨rfl, rfl, rfl, rfl⟩

/-- The table's record words that no BUS row takes, and that the next step commits such a record. -/
theorem test_withFetchWord :
    (after (step (State.reset.withFetchWord 8 0x01))).map statusWord = some 0x00000413#32
      ∧ (after (step (State.reset.withFetchWord 8 0x02))).map lineResultWord = some 0x00000205#32
      ∧ (after (step (State.reset.withFetchWord 32 0x0300003A))).map statusWord = some 0x00000020#32
      ∧ (after (step (State.reset.withFetchWord 8 0x14))).map (·.readData) = some 0xFFFFFFFF#32 := by
  decide

-- Commands.

/-- V-CMD: every ILLEGAL word from R() gives STATUS 00000025. -/
theorem test_illegal_sets_cmd_err : seen statusWord (.wrCmd 0x04FF0000#32) running = some 0x00000025#32 := by
  decide

theorem test_nop : after (exec (.wrCmd 0#32) running) = some running := by
  decide

theorem test_reset_clears_status : seen statusWord (.wrCmd 0x01000000#32) emptyRun = some 0#32 := by
  decide

/-- V-START: all seven rows. -/
theorem test_start_checks :
    statusWord (startRun 4096 State.reset) = 0x00000103#32
      ∧ statusWord (startRun 4 { State.reset with winStart := 0xFFFFFFFF#32 }) = 0x00000103#32
      ∧ statusWord (startRun 4096 { State.reset with winStart := 0xFFFFFFF0#32, winSize := 0x11#32 }) = 0x00000203#32
      ∧ statusWord (startRun 4 { State.reset with winStart := 0xFFFFFFFF#32, winSize := 0xFFFFFFFF#32 })
          = 0x00000203#32
      ∧ statusWord (startRun 4 { State.reset with winSize := 5#32 }) = 0x00000303#32
      ∧ statusWord (startRun 4 { State.reset with winStart := 0xFFFFFFFC#32, winSize := 4#32 }) = 0x00000005#32
      ∧ statusWord (startRun 4096 { State.reset with winStart := 0xFFFFFFF0#32, winSize := 0x10#32 })
          = 0x00000005#32 := by
  decide

/-- START in DONE: the window is erased again, CRC_STATE and the bytes past the new window stay (42_window R170, R174). -/
theorem test_start_restarts :
    startRun 4096 finishedRun =
      { finishedRun with anyHit := false, checksum := 0#32, runState := .running, wbuf := [] } := by
  decide

/-- V-PARSE: `:0G` stops at POS 1, and CR changes nothing. -/
theorem test_char_phases :
    seen parseStateWord (.char 0x3A#8) running = some 0x00000002#32
      ∧ seen parseStateWord (.char 0x20#8) running = some 0x00000001#32
      ∧ seen parseStateWord (.char 0x47#8) (small .hdr 1#10 0#8) = some 0x00010005#32
      ∧ seen parseStateWord (.char 0x0D#8) (small .hdr 1#10 0#8) = some 0x00010002#32
      ∧ seen parseStateWord (.char 0x30#8) (small .hdr 7#10 4#8) = some 0x00080003#32
      ∧ seen parseStateWord (.char 0x31#8) (small .hdr 7#10 0#8) = some 0x00080004#32
      ∧ seen parseStateWord (.char 0x30#8) (small .pay 517#10 255#8) = some 0x02060004#32 := by
  decide

/-- CHAR outside a run (V-PARSE), and a payload byte's two digits, lower case accepted. -/
theorem test_char_payload :
    seen statusWord (.char 0x3A#8) State.reset = some 0x00000020#32
      ∧ after (exec (.char 0x0A#8) finishedRun) = some finishedRun
      ∧ seen (·.pbuf) (.char 0x61#8) { small .pay 10#10 4#8 with pbuf := [(1, 0x77#8)] } = some [(1, 0xA0#8)]
      ∧ seen (·.pbuf) (.char 0x62#8) { small .pay 11#10 4#8 with pbuf := [(1, 0xA0#8)] } = some [(1, 0xAB#8)] := by
  decide

/-- V-EOI: nothing fed is EMPTY, a pending `:0G` counts its line, IDLE is a command error. -/
theorem test_eoi :
    seen statusWord .eoi running = some 0x00000407#32
      ∧ seen (fun t => (lineResultWord t, t.lineCount, t.errCount, t.errLine)) .eoi (small .bad 1#10 0#8)
          = some (0x00000008#32, 1#32, 1#32, 1#32)
      ∧ seen statusWord .eoi State.reset = some 0x00000020#32
      ∧ after (exec .eoi finishedRun) = some finishedRun := by
  decide

/-- V-EOI: the checksum of 55 FF x 7. -/
theorem test_eoi_checksum :
    seen (fun t => (statusWord t, t.checksum, t.crcState)) .eoi
        { running with anyHit := true, lineCount := 1#32, wbuf := [(0, 0x55#8)] }
      = some (0x0000000E#32, 0x1AC92458#32, 0xE536DBA7#32) := by
  decide +kernel

theorem test_crc_init : seen (fun t => (t.crcState, t.checksum)) .crcInit finishedRun = some (0xFFFFFFFF#32, 0xE8B7BE43#32) := by
  decide

theorem test_crc_byte : seen crcResultWord (.crcByte 0x31#8) State.reset = some 0x83DCEFB7#32 := by
  decide

/-- V-CRC: the single steps. -/
theorem test_crc_update :
    crcUpdate 0xFFFFFFFF#32 0x00#8 = 0x2DFD1072#32 ∧ crcUpdate 0xFFFFFFFF#32 0xFF#8 = 0x00FFFFFF#32
      ∧ crcUpdate 0#32 0x01#8 = 0x77073096#32 ∧ crcUpdate 0x12345678#32 0xAB#8 = 0x1FC8B738#32 := by
  decide

/-- E1, E2 and E6. -/
theorem test_crc32 :
    crc32 [] = 0#32 ∧ crc32 [0x31#8, 0x32#8, 0x33#8, 0x34#8, 0x35#8, 0x36#8, 0x37#8, 0x38#8, 0x39#8] = 0xCBF43926#32
      ∧ crc32 [0xDE#8, 0xAD#8, 0xBE#8, 0xEF#8] = 0x7C9CA35A#32 := by
  decide +kernel

-- Records.

/-- V-COMMIT `:0400060012345678E2`: partly in the window. -/
theorem test_recData_partly_inside :
    seen (fun t => (statusWord t, lineResultWord t, t.wbuf)) .recData
        { running with bc := 4#8, off := 6#16, pbuf := [(0, 0x12#8), (1, 0x34#8), (2, 0x56#8), (3, 0x78#8)] }
      = some (0x0000000D#32, 0x00000002#32, [(6, 0x12#8), (7, 0x34#8)]) := by
  decide

/-- V-COMMIT: the four bytes at FFFFFFFE to 00000001, window 0 to 3; and V-COMMIT `:02000000FFFF00`, hits of 0xFF. -/
theorem test_recData_wraps :
    seen (·.wbuf) .recData
        { running with
          actSize := 4#32, highBase := 0xFFFF0000#32, bc := 4#8, off := 0xFFFE#16
          pbuf := [(0, 0xA1#8), (1, 0xA2#8), (2, 0xA3#8), (3, 0xA4#8)] }
      = some [(0, 0xA3#8), (1, 0xA4#8)]
      ∧ seen statusWord .recData { running with bc := 2#8 } = some 0x0000000D#32 := by
  decide

/-- V-COMMIT: a Terminator with no earlier hit, and after `0A`. -/
theorem test_recEof :
    seen (fun t => (statusWord t, lineResultWord t)) .recEof running = some (0x00000417#32, 0x00000103#32)
      ∧ seen (fun t => (statusWord t, t.checksum)) .recEof { running with anyHit := true, wbuf := [(0, 0x0A#8)] }
        = some (0x0000001E#32, 0x96CFC532#32) := by
  decide +kernel

/-- V-COMMIT: `08 00`, and one byte too few on line 1. -/
theorem test_recEla :
    seen (fun t => (t.highBase, lineResultWord t)) .recEla
        { running with rtype := 4#8, bc := 2#8, pbuf := [(0, 0x08#8), (1, 0x00#8)] }
      = some (0x08000000#32, 0x00000404#32)
      ∧ seen (fun t => (t.highBase, lineResultWord t, t.errCount, t.errLine)) .recEla
          { running with rtype := 4#8, bc := 1#8, lineCount := 1#32 }
        = some (0#32, 0x0000040A#32, 1#32, 1#32) := by
  decide

theorem test_recIgnored : seen (fun t => (statusWord t, lineResultWord t)) (.recIgnored 0x05#8) running
    = some (0x00000005#32, 0x00000505#32) := by
  decide

/-- V-PARSE's lines `:` and an empty one: what LF leaves. -/
theorem test_line_ends :
    seen (fun t => (lineResultWord t, t.errCount, t.errLine, parseStateWord t)) (.char 0x0A#8) (small .hdr 0#10 0#8)
        = some (0x00000009#32, 1#32, 1#32, 0#32)
      ∧ seen (fun t => (lineResultWord t, t.errCount, t.lineCount)) (.char 0x0A#8) running
        = some (0x00000001#32, 0#32, 1#32) := by
  decide

-- Reads and writes.

/-- A state with a different value in every register a read answers. -/
def distinct : State :=
  { running with
    winStart := 1#32, winSize := 2#32, highBase := 0x30000#32, crcState := 4#32, checksum := 5#32, lineCount := 6#32
    lineOutcome := .error .elaShort, lineRtype := 4#8, errCount := 7#32, errLine := 8#32, bufIndex := 1#32
    ph := .pay, pos := 10#10, bc := 3#8, wbuf := [(0, 0x11#8), (1, 0x22#8)] }

theorem test_reads :
    seen (·.readData) .rdCmd distinct = some 0#32 ∧ seen (·.readData) .rdStatus distinct = some 0x00000005#32
      ∧ seen (·.readData) .rdWinStart distinct = some 1#32 ∧ seen (·.readData) .rdWinSize distinct = some 2#32
      ∧ seen (·.readData) .rdHighBase distinct = some 0x30000#32 ∧ seen (·.readData) .rdCrcState distinct = some 4#32
      ∧ seen (·.readData) .rdCrcResult distinct = some 0xFFFFFFFB#32
      ∧ seen (·.readData) .rdChecksum distinct = some 5#32 ∧ seen (·.readData) .rdLineCount distinct = some 6#32
      ∧ seen (·.readData) .rdLineResult distinct = some 0x0000040A#32
      ∧ seen (·.readData) .rdErrCount distinct = some 7#32 ∧ seen (·.readData) .rdErrLine distinct = some 8#32
      ∧ seen (·.readData) .rdBufIndex distinct = some 1#32 ∧ seen (·.readData) .rdBufData distinct = some 0x22#32
      ∧ seen (·.readData) .rdParseState distinct = some 0x000A0003#32 := by
  decide

/-- V-BUS: the index 7 of the window, and the "no byte" value from ACT_SIZE on. -/
theorem test_bufData_bounds :
    seen (·.readData) .rdBufData { running with bufIndex := 7#32 } = some 0x000000FF#32
      ∧ seen (·.readData) .rdBufData { running with bufIndex := 8#32 } = some 0x00000100#32
      ∧ seen (·.readData) .rdBufData { running with bufIndex := 0xFFFFFFFF#32 } = some 0x00000100#32
      ∧ seen (·.readData) .rdBufData { running with bufValid := false } = some 0x00000100#32 := by
  decide

theorem test_writes :
    after (exec (.wrWinStart 0x08000000#32) running) = some { running with winStart := 0x08000000#32 }
      ∧ after (exec (.wrWinSize 3#32) running) = some { running with winSize := 3#32 }
      ∧ after (exec (.wrBufIndex 9#32) running) = some { running with bufIndex := 9#32 }
      ∧ after (exec (.wrIgnored 0x04#6 0xFFFFFFFF#32) running) = some running := by
  decide

/-- 43_control R215: `0x7C9CA35A`. -/
theorem test_checksum_text :
    checksumText { State.reset with checksum := 0x7C9CA35A#32 } =
      [0x30#8, 0x78#8, 0x37#8, 0x43#8, 0x39#8, 0x43#8, 0x41#8, 0x33#8, 0x35#8, 0x41#8] := by
  decide

-- Witnesses: the hypotheses of each statement met together, each clause at a boundary value.

theorem inv_small {ph : Phase} {pos : BitVec 10} {bc : Byte}
    (hpay : ph = .pay → 8 ≤ pos.toNat ∧ pos.toNat < 8 + 2 * bc.toNat) (htrl : ph = .trl → pos.toNat = 8 + 2 * bc.toNat)
    (hhdr : ph = .hdr → pos.toNat < 8) (hls : ph = .ls → pos = 0#10) (hskip : ph = .skip → pos = 0#10)
    (hpos : pos.toNat ≤ 518) : Inv (small ph pos bc) where
  highBaseLow := rfl
  runningWindow := fun _ =>
    ⟨rfl, Nat.le_refl _, one_le_maxWindow, (by decide : (0#32 : Word).toNat + (1#32 : Word).toNat ≤ 2 ^ 32)⟩
  runningClean := fun _ => rfl
  doneChecksum := fun h => nomatch h
  doneValid := fun h => nomatch h
  failedFatal := fun h => nomatch h
  payPos := hpay
  trlPos := htrl
  hdrPos := hhdr
  startPos := hls
  skipPos := hskip
  posBound := hpos
  lineClosed := fun h => absurd rfl h
  erasedUntilHit := fun _ _ _ _ => rfl
  pbufForm := Memory.wf_nil
  pbufBound := fun _ h => nomatch h
  wbufForm := Memory.wf_nil
  wbufBound := fun _ h => nomatch h

theorem witness_inv_running :
    Inv (small .ls 0#10 0#8) ∧ Inv (small .hdr 7#10 0#8) ∧ Inv (small .pay 8#10 1#8) ∧ Inv (small .pay 517#10 255#8)
      ∧ Inv (small .trl 518#10 255#8) ∧ Inv (small .bad 11#10 4#8) := by
  refine ⟨?_, ?_, ?_, ?_, ?_, ?_⟩ <;> exact inv_small (by decide) (by decide) (by decide) (by decide) (by decide) (by decide)

theorem witness_inv_done : Inv finishedRun where
  highBaseLow := by decide
  runningWindow := fun h => nomatch h
  runningClean := fun h => nomatch h
  doneChecksum := fun _ => ⟨rfl, rfl, by decide⟩
  doneValid := fun _ => rfl
  failedFatal := fun h => nomatch h
  payPos := fun h => nomatch h
  trlPos := fun h => nomatch h
  hdrPos := fun h => nomatch h
  startPos := fun _ => rfl
  skipPos := fun h => nomatch h
  posBound := by decide
  lineClosed := fun _ => rfl
  erasedUntilHit := fun _ h => nomatch h
  pbufForm := Memory.wf_nil
  pbufBound := fun _ h => nomatch h
  wbufForm := by decide
  wbufBound := fun c h => by
    rw [List.mem_singleton.mp h]
    exact Nat.lt_of_lt_of_le Nat.zero_lt_one one_le_maxWindow

theorem witness_inv_failed : Inv emptyRun where
  highBaseLow := by decide
  runningWindow := fun h => nomatch h
  runningClean := fun h => nomatch h
  doneChecksum := fun h => nomatch h
  doneValid := fun h => nomatch h
  failedFatal := fun _ => by decide
  payPos := fun h => nomatch h
  trlPos := fun h => nomatch h
  hdrPos := fun h => nomatch h
  startPos := fun _ => rfl
  skipPos := fun h => nomatch h
  posBound := by decide
  lineClosed := fun _ => rfl
  erasedUntilHit := fun _ _ _ _ => rfl
  pbufForm := Memory.wf_nil
  pbufBound := fun _ h => nomatch h
  wbufForm := Memory.wf_nil
  wbufBound := fun _ h => nomatch h

theorem inv_facing {s : State} (h : Inv s) (a : Access) : Inv (facing a s) := by
  cases h
  constructor <;> assumption

/-- StepKeepsInvariants and InvariantStatesNeverFault: a digit that completes a record, from a state with Inv. -/
theorem witness_StepKeepsInvariants :
    Inv (facing (cmd 0x03#8 0x41#8) (small .pay 9#10 1#8)) ∧
      (after (step (facing (cmd 0x03#8 0x41#8) (small .pay 9#10 1#8)))).isSome = true :=
  ⟨inv_facing (inv_small (by decide) (by decide) (by decide) (by decide) (by decide) (by decide)) _, by decide⟩

/-- UnspecifiedBufferBytesNeverObservable: two runs that differ in PBUF's byte 7, met in the middle of a payload. -/
theorem witness_UnspecifiedBufferBytesNeverObservable :
    let s := small .pay 9#10 1#8
    let t := { s with pbuf := [(7, 0x00#8)] }
    Inv s ∧ Inv t ∧ SameVisible s t ∧ s ≠ t := by
  have h : Inv (small .pay 9#10 1#8) :=
    inv_small (by decide) (by decide) (by decide) (by decide) (by decide) (by decide)
  refine ⟨h, { h with pbufForm := by decide, pbufBound := by decide }, ⟨rfl, fun _ _ _ => rfl, ?_, fun h => nomatch h⟩,
    by decide⟩
  intro _ j hj
  have : j = 0 := by have : (small .pay 9#10 1#8).pos.toNat = 9 := rfl; omega
  subst this
  rfl

theorem witness_DecodeEncodeRoundTrip :
    Instr.wellFormed (.illegal 0xFFFFFFFF#32) = true ∧ Instr.wellFormed (.char 0xFF#8) = true
      ∧ Instr.wellFormed (.recIgnored 0xFF#8) = true ∧ Instr.wellFormed (.wrIgnored 0x04#6 0xFFFFFFFF#32) = true := by
  decide

theorem witness_IllegalCommandWordsAreCommandErrors :
    decodeCommand 0x07000000#32 = .illegal 0x07000000#32 ∧ decodeCommand 0x00800000#32 = .illegal 0x00800000#32
      ∧ decodeCommand 0x00000001#32 = .illegal 0x00000001#32 ∧ decodeCommand 0x030000FF#32 = .char 0xFF#8 := by
  decide

theorem witness_HexDigitValues :
    [0x30#8, 0x39#8, 0x41#8, 0x46#8, 0x61#8, 0x66#8].map (fun c => (isHex c, hexVal c)) =
        [(true, 0#4), (true, 9#4), (true, 10#4), (true, 15#4), (true, 10#4), (true, 15#4)]
      ∧ [0x2F#8, 0x3A#8, 0x40#8, 0x47#8, 0x60#8, 0x67#8].map isHex = [false, false, false, false, false, false] := by
  decide

theorem witness_StepRunsDecodedInstruction :
    (facing (readAccess 0x3C#6) running).pending = [readAccess 0x3C#6]
      ∧ decodeAccess (readAccess 0x3C#6) = .ok .rdMaxWindow ∧ (readAccess 0x3C#6).dir = .read :=
  ⟨rfl, rfl, rfl⟩

theorem witness_ReadsHaveNoSideEffect :
    (after (step (facing (readAccess 0x04#6) running))).isSome = true := by
  decide

theorem witness_StepIdlesBetweenAccesses : State.reset.pending = [] := rfl

/-- Both sides of the refusal at the ends of the window. -/
theorem witness_OnlyAlignedWordAccessesHaveAStep :
    (after (step (facing (readAccess 0x00#6) running))).isSome = true
      ∧ (after (step (facing (writeAccess 0x3C#6 0#32) running))).isSome = true
      ∧ step (facing { dir := .read, width := .w32, offset := 0x40, data := 0#32 } running)
          = .refused (.notAnAccess .outsideWindow)
      ∧ step (facing { dir := .read, width := .w32, offset := -1, data := 0#32 } running)
          = .refused (.notAnAccess .outsideWindow)
      ∧ step (facing { dir := .read, width := .w32, offset := 0x3D, data := 0#32 } running)
          = .refused (.notAnAccess .misaligned)
      ∧ step (facing { dir := .read, width := .w8, offset := 0, data := 0#32 } running)
          = .refused (.notAnAccess .width) :=
  ⟨by decide, by decide, rfl, rfl, rfl, rfl⟩

/-- EveryInstructionAnswers and WrCmdRunsItsCommand: PBUF's last byte. -/
theorem witness_PayloadReady :
    (small .pay 517#10 255#8).runState = .running ∧ PayloadReady (small .pay 517#10 255#8) ∧ PayloadReady running :=
  ⟨rfl, fun _ => by decide, fun h => nomatch h⟩

theorem witness_CharFaultsWithoutPayloadByte :
    exec (.char 0x30#8) (small .pay 518#10 255#8) = .fault (.noPayloadByte 255)
      ∧ isHex 0x30#8 = true ∧ payloadIndex (small .pay 518#10 255#8).pos = 255 :=
  ⟨rfl, rfl, rfl⟩

/-- A line error counted from no error, and a second one. -/
theorem witness_NoErrorsNoErrorLine :
    (after (step (facing (cmd 0x03#8 0x0A#8) (small .bad 1#10 0#8)))).map (fun t => (t.errCount, t.errLine))
        = some (1#32, 1#32)
      ∧ (small .bad 1#10 0#8).errCount = 0#32 ∧ (small .bad 1#10 0#8).errLine = 0#32 := by
  decide

/-- The first and the last index with a byte, and the first without. -/
theorem witness_BufDataReads :
    running.bufValid = true ∧ running.bufIndex.toNat < running.actSize.toNat
      ∧ ({ running with bufIndex := 7#32 } : State).bufIndex.toNat < running.actSize.toNat
      ∧ ¬ ({ running with bufIndex := 8#32 } : State).bufIndex.toNat < running.actSize.toNat := by
  decide

/-- Each window error at its boundary, for the third with a buffer one byte too small. -/
theorem witness_StartRejectsBadWindows :
    State.reset.winSize = 0#32
      ∧ 2 ^ 32 < (0xFFFFFFFF#32 : Word).toNat + (2#32 : Word).toNat
      ∧ (5#32 : Word) ≠ 0#32 ∧ (0xFFFFFFFB#32 : Word).toNat + (5#32 : Word).toNat ≤ 2 ^ 32
      ∧ 4 < (5#32 : Word).toNat := by
  decide

theorem witness_StartAcceptsGoodWindows :
    (1#32 : Word) ≠ 0#32 ∧ (0xFFFFFFFF#32 : Word).toNat + (1#32 : Word).toNat ≤ 2 ^ 32
      ∧ (1#32 : Word).toNat ≤ Config.maxWindow :=
  ⟨by decide, by decide, one_le_maxWindow⟩

/-- CharOutsideARun and EoiByRunState: the three states that are no run. -/
theorem witness_outside_a_run :
    State.reset.runState = .idle ∧ finishedRun.runState = .done ∧ emptyRun.runState = .failed :=
  ⟨rfl, rfl, rfl⟩

/-- CharIgnoredInARun and LineEndsWithoutARecord: a run in each phase. -/
theorem witness_phases_of_a_run :
    ∀ ph : Phase, (small ph 0#10 0#8).runState = .running ∧ (small ph 0#10 0#8).ph = ph :=
  fun _ => ⟨rfl, rfl⟩

theorem witness_CharStartsALine :
    running.runState = .running ∧ running.ph = .ls ∧ 0x3A#8 ≠ 0x0D#8 ∧ 0x3A#8 ≠ 0x0A#8 ∧ 0x58#8 ≠ 0x3A#8
      ∧ 0x58#8 ≠ 0x0D#8 ∧ 0x58#8 ≠ 0x0A#8 := by
  decide

/-- The first header digit, the edges of each field, the last digit, and a character that is no digit. -/
theorem witness_CharReadsHeaderDigits :
    (∀ p ∈ [0#10, 1#10, 2#10, 5#10, 6#10, 7#10], (small .hdr p 0x21#8).runState = .running
        ∧ (small .hdr p 0x21#8).ph = .hdr ∧ (small .hdr p 0x21#8).pos.toNat ≤ 7)
      ∧ isHex 0x46#8 = true ∧ isHex 0x47#8 = false ∧ (0x46#8 : Byte) ≠ 0x0D#8 ∧ (0x46#8 : Byte) ≠ 0x0A#8 := by
  decide

/-- The fields' values at those edges (40_record R127). -/
theorem test_header_fields :
    [0#10, 1#10, 2#10, 5#10, 6#10, 7#10].map
        (fun p => seen (fun t => (t.bc, t.off, t.rtype)) (.char 0x46#8) { small .hdr p 0x21#8 with off := 0x1234#16, rtype := 0x56#8 })
      = [some (0x1F#8, 0x1234#16, 0x56#8), some (0x1F#8, 0x1234#16, 0x56#8), some (0x21#8, 0x234F#16, 0x56#8),
         some (0x21#8, 0x234F#16, 0x56#8), some (0x21#8, 0x1234#16, 0x6F#8), some (0x21#8, 0x1234#16, 0x6F#8)] := by
  decide

/-- The first payload digit, and the last one of the longest record. -/
theorem witness_CharReadsPayloadDigits :
    8 ≤ (small .pay 8#10 1#8).pos.toNat ∧ (small .pay 8#10 1#8).pos.toNat < 8 + 2 * (small .pay 8#10 1#8).bc.toNat
      ∧ (small .pay 517#10 255#8).pos.toNat < 8 + 2 * (small .pay 517#10 255#8).bc.toNat
      ∧ Memory.wf (small .pay 8#10 1#8).pbuf ∧ isHex 0x66#8 = true ∧ isHex 0x67#8 = false := by
  decide

theorem witness_LineEndCommitsTheRecord :
    (small .trl 8#10 0#8).runState = .running ∧ (small .trl 8#10 0#8).ph = .trl :=
  ⟨rfl, rfl⟩

theorem witness_CharWritesOnlyTheParser :
    (after (exec (.char 0x41#8) (small .pay 8#10 1#8))).isSome = true ∧ (after (exec (.char 0x41#8) State.reset)).isSome = true := by
  decide

/-- The shortest and the longest record, byte counts 00 and FF: PBUF's first byte past the payload and its last in it. -/
theorem witness_WholeRecordIsParsed :
    running.runState = .running ∧ running.ph = .ls ∧ Memory.wf running.pbuf ∧ isHex 0x30#8 = true ∧ isHex 0x46#8 = true
      ∧ ([] : List Byte).length = 2 * ((hexVal 0x30#8).toNat * 16 + (hexVal 0x30#8).toNat)
      ∧ ([] : List Byte).length ≤ 2 * 0
      ∧ (List.replicate 510 0x30#8).length = 2 * ((hexVal 0x46#8).toNat * 16 + (hexVal 0x46#8).toNat)
      ∧ 2 * 254 < (List.replicate 510 0x30#8).length := by
  rw [List.length_replicate]
  exact ⟨rfl, rfl, Memory.wf_nil, rfl, rfl, rfl, Nat.le_refl _, rfl, by decide⟩

/-- A payload byte at the last byte of the window, and one past it. -/
theorem witness_DataRecordPlacesItsBytes :
    let s := { running with bc := 2#8, off := 7#16 }
    Memory.wf s.wbuf ∧ windowHolds s (byteAddress s 0) ∧ ¬ windowHolds s (byteAddress s 1) := by
  refine ⟨Memory.wf_nil, ?_, ?_⟩ <;> unfold windowHolds byteAddress <;> decide

theorem witness_ElaRecordLoadsTheHighBase :
    ({ small .trl 12#10 2#8 with rtype := 0x04#8 } : State).rtype = 0x04#8
      ∧ 2 ≤ (small .trl 12#10 2#8).bc.toNat ∧ (small .trl 10#10 1#8).bc.toNat < 2 := by
  decide

/-- A pending line that leaves the run going, and a pending Terminator that ends it. -/
theorem witness_EoiByRunState :
    running.runState = .running ∧ running.ph = .ls ∧ (small .hdr 3#10 0#8).ph ≠ .ls
      ∧ seen (·.runState) (.char 0x0A#8) (small .hdr 3#10 0#8) = some .running
      ∧ seen (·.runState) (.char 0x0A#8) { small .trl 8#10 0#8 with rtype := 0x01#8 } = some .failed := by
  decide

/-- The run state changed by START, by RESET, by a Terminator's LF and by EOI. -/
theorem witness_RunStateWriters :
    (after (step (facing (cmd 0x02#8 0#8) State.reset))).map (·.runState) = some .failed
      ∧ (after (step (facing (cmd 0x01#8 0#8) running))).map (·.runState) = some .idle
      ∧ (after (step (facing (cmd 0x03#8 0x0A#8) { small .trl 8#10 0#8 with rtype := 0x01#8 }))).map (·.runState)
          = some .failed
      ∧ (after (step (facing (cmd 0x04#8 0#8) { running with anyHit := true }))).map (·.runState) = some .done := by
  decide

/-- HIGH_BASE changed by an Extended-High-Address record, and back to 0 by RESET and START. -/
theorem witness_HighBaseWriters :
    (after (step (facing (cmd 0x03#8 0x0A#8)
        { small .trl 12#10 2#8 with rtype := 0x04#8, pbuf := [(0, 0x08#8), (1, 0x00#8)] }))).map (·.highBase)
          = some 0x08000000#32
      ∧ (after (step (facing (cmd 0x01#8 0#8) distinct))).map (·.highBase) = some 0#32
      ∧ (after (step (facing (cmd 0x02#8 0#8) { distinct with winSize := 0#32 }))).map (·.highBase) = some 0#32 := by
  decide

theorem witness_ActiveWindowWriters :
    (after (step (facing (cmd 0x01#8 0#8) running))).map (·.actSize) = some 0#32
      ∧ (after (step (facing (writeAccess 0x0C#6 3#32) running))).map (·.actSize) = some 8#32 := by
  decide

theorem witness_ChecksumWriters :
    (after (step (facing (cmd 0x04#8 0#8) { small .ls 0#10 0#8 with anyHit := true, wbuf := [(0, 0x61#8)] }))).map (·.checksum)
          = some 0xE8B7BE43#32
      ∧ (after (step (facing (cmd 0x02#8 0#8) { finishedRun with winSize := 0#32 }))).map (·.checksum) = some 0#32 := by
  decide

/-- CRC_STATE changed by CRC_INIT, by CRC_BYTE and by the end of a run. -/
theorem witness_CrcStateWriters :
    (after (step (facing (cmd 0x05#8 0#8) finishedRun))).map (·.crcState) = some 0xFFFFFFFF#32
      ∧ (after (step (facing (cmd 0x06#8 0x31#8) State.reset))).map (·.crcState) = some 0x7C231048#32
      ∧ (after (step (facing (cmd 0x04#8 0#8) { small .ls 0#10 0#8 with anyHit := true, wbuf := [(0, 0x61#8)] }))).map
          (fun t => (t.crcState, crcResultWord t)) = some (0x174841BC#32, 0xE8B7BE43#32) := by
  decide

/-- ANY_HIT set by a Data record, TERM_SEEN and FATAL by a Terminator; BUF_VALID and FATAL changed by a START that
rejects, and all four cleared by RESET. -/
theorem witness_RunFlagWriters :
    (after (step (facing (cmd 0x03#8 0x0A#8) (small .trl 10#10 1#8)))).map (·.anyHit) = some true
      ∧ (after (step (facing (cmd 0x03#8 0x0A#8) { small .trl 8#10 0#8 with rtype := 0x01#8 }))).map
          (fun t => (t.termSeen, t.fatal)) = some (true, .empty)
      ∧ (after (step (facing (cmd 0x02#8 0#8) { emptyRun with winSize := 0#32 }))).map
          (fun t => (t.runState, t.bufValid, t.fatal)) = some (.failed, false, .winZero)
      ∧ (after (step (facing (cmd 0x01#8 0#8) { emptyRun with anyHit := true, termSeen := true }))).map
          (fun t => (t.anyHit, t.termSeen, t.bufValid, t.fatal)) = some (false, false, false, .noError) := by
  decide

/-- BUF_VALID and FATAL changed by a START that accepts. -/
theorem witness_RunFlagWriters_accept :
    let s := { emptyRun with bufValid := false }
    (after (exec .start s)).map (fun t => (t.runState, t.bufValid, t.fatal)) = some (.running, true, .noError) := by
  intro s
  have h : startRun Config.maxWindow s = acceptWindow (clearRun s) := by
    rcases startRun_cases Config.maxWindow s with ⟨h, -⟩ | ⟨-, h, -⟩ | ⟨-, -, h, -⟩ | ⟨-, -, -, h⟩
    · exact absurd h (by decide)
    · exact absurd h (by decide)
    · exact absurd h (Nat.not_lt.mpr one_le_maxWindow)
    · exact h
  simp only [exec, execStart, h]
  rfl

/-- A line ended by LF, and START clearing the line registers. -/
theorem witness_LineRegisterWriters :
    (after (step (facing (cmd 0x03#8 0x0A#8) (small .skip 0#10 0#8)))).map (fun t => (t.lineCount, t.errCount))
        = some (1#32, 0#32)
      ∧ (after (step (facing (cmd 0x02#8 0#8) { distinct with winSize := 0#32 }))).map (fun t => (t.lineCount, t.errLine))
          = some (0#32, 0#32) := by
  decide

theorem witness_CommandErrorIsSticky :
    (after (step (facing (writeAccess 0x00#6 0x07000000#32) running))).map (·.cmdErr) = some true
      ∧ (after (step (facing (cmd 0x03#8 0x41#8) State.reset))).map (·.cmdErr) = some true
      ∧ (after (step (facing (cmd 0x04#8 0#8) State.reset))).map (·.cmdErr) = some true
      ∧ (after (step (facing (cmd 0x00#8 0#8) { running with cmdErr := true }))).map (·.cmdErr) = some true
      ∧ (after (step (facing (cmd 0x01#8 0#8) { running with cmdErr := true }))).map (·.cmdErr) = some false := by
  decide

theorem witness_HostRegisterWriters :
    (after (step (facing (writeAccess 0x30#6 7#32) running))).map (·.bufIndex) = some 7#32
      ∧ (after (step (facing (writeAccess 0x08#6 7#32) running))).map (·.winStart) = some 7#32
      ∧ (after (step (facing (writeAccess 0x0C#6 7#32) running))).map (·.winSize) = some 7#32
      ∧ (after (step (facing (cmd 0x01#8 0#8) distinct))).map (fun t => (t.bufIndex, t.winStart, t.winSize))
          = some (0#32, 0#32, 0#32) := by
  decide

theorem witness_OutputFileIsWhatBufDataReads :
    Inv finishedRun ∧ outputFile finishedRun = some [0x61#8] ∧ (0#32 : Word).toNat < finishedRun.actSize.toNat :=
  ⟨witness_inv_done, by decide, by decide⟩

end Sys2Proof.Tests
end

section
/-! PROOFS. The step: the host's next access, decoded and run (00_scope R7). -/

namespace Sys2Proof.Proofs.Scope

open Sys2Proof.Machine

/-- The access taken is the oldest pending one, and taking it changes the pending accesses alone. -/
theorem takeAccess_cons {s : State} {a : Access} {rest : List Access} (hp : s.pending = a :: rest) :
    takeAccess s = some (a, { s with pending := rest }) := by
  simp [takeAccess, hp]

theorem step_of_decodeAccess_ok {s s' : State} {a : Access} {i : Instr} (ht : takeAccess s = some (a, s'))
    (hd : decodeAccess a = .ok i) : step s = exec i s' := by
  simp [step, ht, hd]

/-- Settles O7: the step takes the head access, and its decoding selects the instruction that runs. -/
theorem stepRunsDecodedInstruction : Obligations.StepRunsDecodedInstruction := by
  intro s a rest i hp hd
  exact step_of_decodeAccess_ok (takeAccess_cons hp) hd

end Sys2Proof.Proofs.Scope
end

section
/-! PROOFS. The invariants of 10_state R50: they hold at reset and every step keeps them. -/

namespace Sys2Proof.Proofs.Invariants

open Sys2Proof.Machine

-- Which fields the invariants speak of.

/-- The invariants speak of no host register, of no command error and not of the CRC engine's register. -/
theorem inv_of_hostFields {s : State} (h : Inv s) (e : Bool) (ws wz bi cr : Word) (p : List Access) (rd : Word) :
    Inv { s with
      cmdErr := e, winStart := ws, winSize := wz, bufIndex := bi, crcState := cr, pending := p, readData := rd } :=
  { h with }

/-- Settles O13: nothing runs, no window is held and both buffers list no byte. -/
theorem resetMeetsInvariants : Obligations.ResetMeetsInvariants where
  highBaseLow := rfl
  runningWindow := nofun
  runningClean := nofun
  doneChecksum := nofun
  doneValid := nofun
  failedFatal := nofun
  payPos := nofun
  trlPos := nofun
  hdrPos := nofun
  startPos _ := rfl
  skipPos := nofun
  posBound := by decide
  lineClosed _ := rfl
  erasedUntilHit := nofun
  pbufForm := Memory.wf_nil
  pbufBound := nofun
  wbufForm := Memory.wf_nil
  wbufBound := nofun

theorem inv_resetBlock (s : State) : Inv (resetBlock s) :=
  inv_of_hostFields resetMeetsInvariants _ _ _ _ _ _ _

-- START.

/-- A rejecting START leaves a FAILED run with its code and no window. -/
theorem inv_reject {s : State} (h : Inv s) {code : FatalCode} (hc : code ≠ .noError) :
    Inv (fatalError code { clearRun s with bufValid := false }) where
  highBaseLow := rfl
  runningWindow := nofun
  runningClean := nofun
  doneChecksum := nofun
  doneValid := nofun
  failedFatal _ := hc
  payPos := nofun
  trlPos := nofun
  hdrPos := nofun
  startPos _ := rfl
  skipPos := nofun
  posBound := by simp
  lineClosed _ := rfl
  erasedUntilHit := nofun
  pbufForm := h.pbufForm
  pbufBound := h.pbufBound
  wbufForm := h.wbufForm
  wbufBound := h.wbufBound

/-- An accepting START opens a run on an erased window inside WBUF. -/
theorem inv_accept {s : State} (h : Inv s) (h0 : s.winSize.toNat ≠ 0)
    (hEnd : s.winStart.toNat + s.winSize.toNat ≤ 2 ^ 32) (hMax : s.winSize.toNat ≤ Config.maxWindow) :
    Inv (acceptWindow (clearRun s)) where
  highBaseLow := rfl
  runningWindow _ := ⟨rfl, Nat.one_le_iff_ne_zero.2 h0, hMax, hEnd⟩
  runningClean _ := rfl
  doneChecksum := nofun
  doneValid := nofun
  failedFatal := nofun
  payPos := nofun
  trlPos := nofun
  hdrPos := nofun
  startPos _ := rfl
  skipPos := nofun
  posBound := by simp
  lineClosed _ := rfl
  erasedUntilHit _ _ i hi := (Memory.read_eraseBelow _ _ i).trans (if_pos hi)
  pbufForm := h.pbufForm
  pbufBound := h.pbufBound
  wbufForm := Memory.eraseBelow_wf h.wbufForm _
  wbufBound c hc := h.wbufBound c (Memory.mem_eraseBelow hc)

theorem inv_startRun {s : State} (h : Inv s) : Inv (startRun Config.maxWindow s) := by
  rcases startRun_cases Config.maxWindow s with ⟨-, e⟩ | ⟨-, -, e⟩ | ⟨-, -, -, e⟩ | ⟨h0, hEnd, hMax, e⟩ <;> rw [e]
  · exact inv_reject h nofun
  · exact inv_reject h nofun
  · exact inv_reject h nofun
  · exact inv_accept h h0 hEnd hMax

-- The parser.

/-- What the invariants ask of a phase and its position (10_state R50). -/
structure ParserInv (ph : Phase) (pos : BitVec 10) (bc : Byte) : Prop where
  payPos   : ph = .pay → 8 ≤ pos.toNat ∧ pos.toNat < 8 + 2 * bc.toNat
  trlPos   : ph = .trl → pos.toNat = 8 + 2 * bc.toNat
  hdrPos   : ph = .hdr → pos.toNat < 8
  startPos : ph = .ls → pos = 0#10
  skipPos  : ph = .skip → pos = 0#10
  posBound : pos.toNat ≤ 518

/-- In a run the parser's elements may take any values that fit together. -/
theorem inv_of_parser {s : State} (h : Inv s) (hr : s.runState = .running) {ph : Phase} {pos : BitVec 10} {bc : Byte}
    (hp : ParserInv ph pos bc) (off : Half) (rtype : Byte) {pbuf : Memory} (hwf : Memory.wf pbuf)
    (hb : ∀ c ∈ pbuf, c.1 < Config.payloadCapacity) :
    Inv { s with ph := ph, pos := pos, bc := bc, off := off, rtype := rtype, pbuf := pbuf } :=
  { h with
    payPos := hp.payPos, trlPos := hp.trlPos, hdrPos := hp.hdrPos, startPos := hp.startPos, skipPos := hp.skipPos
    posBound := hp.posBound, lineClosed := fun hn => absurd hr hn, pbufForm := hwf, pbufBound := hb }

theorem parserInv_bad {pos : BitVec 10} (bc : Byte) (h : pos.toNat ≤ 518) : ParserInv .bad pos bc :=
  ⟨nofun, nofun, nofun, nofun, nofun, h⟩

theorem parserInv_lineStart (bc : Byte) : ParserInv .ls 0#10 bc :=
  ⟨nofun, nofun, nofun, fun _ => rfl, nofun, by decide⟩

theorem parserInv_headerStart (bc : Byte) : ParserInv .hdr 0#10 bc :=
  ⟨nofun, nofun, fun _ => by decide, nofun, nofun, by decide⟩

theorem parserInv_skip {pos : BitVec 10} (bc : Byte) (h : pos = 0#10) : ParserInv .skip pos bc :=
  ⟨nofun, nofun, nofun, nofun, fun _ => h, by rw [h]; decide⟩

theorem toNat_succ_pos {pos : BitVec 10} (h : pos.toNat ≤ 518) : (pos + 1#10).toNat = pos.toNat + 1 := by
  rw [BitVec.toNat_add, BitVec.toNat_ofNat]
  omega

/-- After a header digit: still in the header below 8, and at 8 the payload or, with no payload, the trailer. -/
theorem parserInv_headerDigit {s : State} (hp : s.ph = .hdr) (hlt : s.pos.toNat < 8) {bc : Byte}
    (hbc : s.pos.toNat = 7 → bc = s.bc) : ParserInv (headerPhase s) (s.pos + 1#10) bc := by
  have hpos := toNat_succ_pos (pos := s.pos) (by omega)
  unfold headerPhase
  by_cases h7 : s.pos.toNat = 7
  · rw [if_pos h7, hbc h7]
    by_cases hz : s.bc = 0x00#8
    · rw [if_pos hz]
      exact ⟨nofun, fun _ => by rw [hpos, h7, hz]; rfl, nofun, nofun, nofun, by omega⟩
    · have : s.bc.toNat ≠ 0 := fun h0 => hz (BitVec.eq_of_toNat_eq h0)
      rw [if_neg hz]
      exact ⟨fun _ => by omega, nofun, nofun, nofun, nofun, by omega⟩
  · rw [if_neg h7, hp]
    exact ⟨nofun, nofun, fun _ => by omega, nofun, nofun, by omega⟩

/-- After a payload digit: the trailer when it was the last one, else still the payload. -/
theorem parserInv_payloadDigit {s : State} (hp : s.ph = .pay) (h8 : 8 ≤ s.pos.toNat)
    (hlt : s.pos.toNat < 8 + 2 * s.bc.toNat) : ParserInv (payloadPhase s) (s.pos + 1#10) s.bc := by
  have hbc := s.bc.isLt
  have hpos := toNat_succ_pos (pos := s.pos) (by omega)
  unfold payloadPhase
  by_cases hl : s.pos.toNat + 1 = 8 + 2 * s.bc.toNat
  · rw [if_pos hl]
    exact ⟨nofun, fun _ => by omega, nofun, nofun, nofun, by omega⟩
  · rw [if_neg hl, hp]
    exact ⟨fun _ => by omega, nofun, nofun, nofun, nofun, by omega⟩

theorem inv_toBad {s : State} (h : Inv s) (hr : s.runState = .running) : Inv { s with ph := .bad } :=
  inv_of_parser h hr (parserInv_bad s.bc h.posBound) s.off s.rtype h.pbufForm h.pbufBound

theorem inv_parseLineStart {s : State} (h : Inv s) (hr : s.runState = .running) (hp : s.ph = .ls) (c : Byte) :
    Inv (parseLineStart c s) := by
  unfold parseLineStart
  split
  · exact inv_of_parser h hr (parserInv_headerStart _) _ _ h.pbufForm h.pbufBound
  · exact inv_of_parser h hr (parserInv_skip s.bc (h.startPos hp)) _ _ h.pbufForm h.pbufBound

theorem inv_parseHeader {s : State} (h : Inv s) (hr : s.runState = .running) (hp : s.ph = .hdr) (c : Byte) :
    Inv (parseHeader c s) := by
  have hlt := h.hdrPos hp
  rcases parseHeader_cases c s with ⟨-, e⟩ | ⟨-, e⟩ <;> rw [e]
  · exact inv_toBad h hr
  · rcases pushHeaderDigit_cases s.pos.toNat (hexVal c) s with ⟨h1, e⟩ | ⟨-, -, e⟩ | ⟨-, e⟩ <;> rw [e]
    · exact inv_of_parser h hr (parserInv_headerDigit hp hlt fun h7 => by omega) _ _ h.pbufForm h.pbufBound
    · exact inv_of_parser h hr (parserInv_headerDigit hp hlt fun _ => rfl) _ _ h.pbufForm h.pbufBound
    · exact inv_of_parser h hr (parserInv_headerDigit hp hlt fun _ => rfl) _ _ h.pbufForm h.pbufBound

theorem inv_parsePayload {s t : State} (h : Inv s) (hr : s.runState = .running) (hp : s.ph = .pay) {c : Byte}
    (ht : parsePayload c s = .next t) : Inv t := by
  obtain ⟨h8, hlt⟩ := h.payPos hp
  rcases parsePayload_cases c s with ⟨-, e⟩ | ⟨-, hj, e⟩ | ⟨-, -, e⟩ <;> rw [e] at ht <;> cases ht
  · exact inv_toBad h hr
  · refine inv_of_parser h hr (parserInv_payloadDigit hp h8 hlt) _ _ (Memory.write_wf h.pbufForm _ _) fun d hd => ?_
    rcases Memory.mem_write hd with hd | hd
    · exact h.pbufBound d hd
    · rw [hd]; exact hj

theorem inv_parseChar {s t : State} (h : Inv s) (hr : s.runState = .running) {c : Byte}
    (ht : parseChar c s = .next t) : Inv t := by
  unfold parseChar at ht
  cases hp : s.ph <;> simp only [hp] at ht
  case ls => cases ht; exact inv_parseLineStart h hr hp c
  case hdr => cases ht; exact inv_parseHeader h hr hp c
  case pay => exact inv_parsePayload h hr hp ht
  all_goals cases ht; exact h

-- The end of a line and of a run.

/-- Reporting on a line and going on to the next one. -/
theorem inv_nextLine {s : State} (h : Inv s) (lc : Word) (o : LineOutcome) (r : Byte) (ec el : Word) (ts : Bool) :
    Inv { s with
      lineCount := lc, lineOutcome := o, lineRtype := r, errCount := ec, errLine := el, termSeen := ts
      ph := .ls, pos := 0#10 } :=
  { parserInv_lineStart s.bc, h with lineClosed := fun _ => rfl }

/-- A Data record in a run writes inside the window, and erased bytes change only under a hit. -/
theorem inv_placeBytes {s : State} (h : Inv s) (hr : s.runState = .running) :
    Inv { s with
      wbuf := (List.range s.bc.toNat).foldl (placePayloadByte s) s.wbuf
      anyHit := s.anyHit || (List.range s.bc.toNat).any (payloadHits s) } := by
  obtain ⟨-, -, hMax, -⟩ := h.runningWindow hr
  have hbc := s.bc.isLt
  obtain ⟨hwf, -, -, hmem⟩ := foldl_placePayloadByte s s.wbuf h.wbufForm s.bc.toNat (by omega)
  refine { h with
    doneChecksum := fun hd => absurd (hr.symm.trans hd) nofun
    erasedUntilHit := fun hv hno => ?_, wbufForm := hwf, wbufBound := fun c hc => ?_ }
  · obtain ⟨hold, hnone⟩ := Bool.or_eq_false_iff.1 hno
    rw [List.any_eq_false] at hnone
    show ∀ i, i < s.actSize.toNat → Memory.read (List.foldl _ _ _) i = _
    rw [foldl_placePayloadByte_no_hit s s.wbuf _ fun i hi => Bool.eq_false_iff.2 (hnone i hi)]
    exact h.erasedUntilHit hv hold
  · rcases hmem c hc with hc | ⟨i, -, hhit, hi⟩
    · exact h.wbufBound c hc
    · simp only [payloadHits, inWindow, Bool.and_eq_true, decide_eq_true_eq] at hhit
      rw [hi, windowIndex]
      omega

theorem elaBase_low (s : State) : (elaBase s).extractLsb' 0 16 = 0x0000#16 := by
  exact BitVec.extractLsb'_append_eq_right

/-- A finish from a run leads to DONE with the checksum of a hit window, or to FAILED with EMPTY. -/
theorem inv_finish {s : State} (h : Inv s) (hr : s.runState = .running) (hp : s.ph = .ls) : Inv (finish s) := by
  rcases finish_cases s with ⟨hhit, e⟩ | ⟨-, e⟩ <;> rw [e]
  · obtain ⟨hv, -⟩ := h.runningWindow hr
    exact { h with
      runningWindow := nofun, runningClean := nofun, failedFatal := nofun
      doneChecksum := fun _ => ⟨hhit, h.runningClean hr, rfl⟩
      doneValid := fun _ => hv
      lineClosed := fun _ => hp }
  · exact { h with
      runningWindow := nofun, runningClean := nofun, doneChecksum := nofun, doneValid := nofun
      failedFatal := nofun
      lineClosed := fun _ => hp }

theorem inv_endOfLine {s : State} (h : Inv s) (hr : s.runState = .running) : Inv (endOfLine s) := by
  rcases endOfLine_effect s with ⟨o, r, ec, el, e, -⟩ | ⟨-, -, e⟩ | ⟨-, -, -, e⟩ | ⟨-, -, e⟩ <;> rw [e]
  · exact inv_nextLine h _ o r ec el s.termSeen
  · exact inv_nextLine (inv_placeBytes h hr) _ _ _ s.errCount s.errLine s.termSeen
  · exact { inv_nextLine h (s.lineCount + 1#32) .ela 0x04#8 s.errCount s.errLine s.termSeen with
      highBaseLow := elaBase_low s }
  · exact inv_finish (inv_nextLine h _ _ _ s.errCount s.errLine true) hr rfl

-- The step.

theorem inv_command {c : Command} {s t : State} (h : Inv s) (ht : exec (commandInstr c) s = .next t) : Inv t := by
  rcases command_effect ht with rfl | ⟨rfl, -⟩ | ⟨-, rfl⟩ | ⟨-, rfl⟩ | ⟨-, e⟩ | ⟨b, -, hr, e⟩ | ⟨hr, rfl, -⟩
    | ⟨hr, -, hp, rfl⟩ | ⟨hr, -, -, hr', rfl⟩
  · exact h
  · exact inv_of_hostFields h true _ _ _ _ _ _
  · exact inv_resetBlock s
  · exact inv_startRun h
  · rw [e]; exact inv_of_hostFields h _ _ _ _ t.crcState _ _
  · exact inv_parseChar h hr e
  · exact inv_endOfLine h hr
  · exact inv_finish h hr hp
  · exact inv_finish (inv_endOfLine h hr) hr' (endOfLine_ph s)

/-- Settles O14: the host's own writes touch nothing the invariants speak of, and every command keeps them. -/
theorem stepKeepsInvariants : Obligations.StepKeepsInvariants := by
  intro s t h hstep
  rcases step_cases hstep with ⟨-, rfl⟩ | ⟨a, rest, -, he⟩
  · exact h
  · rcases he with ⟨-, v, rfl⟩ | ⟨-, rfl⟩ | ⟨-, rfl⟩ | ⟨-, rfl⟩ | ⟨-, rfl⟩ | ⟨c, -, hc⟩
    · exact inv_of_hostFields h _ _ _ _ _ rest v
    · exact inv_of_hostFields h _ a.data _ _ _ rest _
    · exact inv_of_hostFields h _ _ a.data _ _ rest _
    · exact inv_of_hostFields h _ _ _ a.data _ rest _
    · exact inv_of_hostFields h _ _ _ _ _ rest _
    · exact inv_command (inv_of_hostFields h _ _ _ _ _ rest _) hc

end Sys2Proof.Proofs.Invariants
end

section
/-! PROOFS. Which instructions answer (10_state R47, 60_exceptions R230), and what the fields of the registers read as
(10_state R23, R37, R42, R43). -/

namespace Sys2Proof.Proofs.Answers

open Sys2Proof.Machine

-- CHAR is the one instruction that can stop.

theorem isHex_ne_lineEnd {c : Byte} (h : isHex c = true) : c ≠ 0x0D#8 ∧ c ≠ 0x0A#8 := by
  constructor <;> rintro rfl <;> exact absurd h (by decide)

theorem parsePayload_fault_iff (c : Byte) (s : State) (f : Fault) :
    parsePayload c s = .fault f ↔
      isHex c = true ∧ Config.payloadCapacity ≤ payloadIndex s.pos ∧ f = .noPayloadByte (payloadIndex s.pos) := by
  rcases parsePayload_cases c s with ⟨hx, e⟩ | ⟨-, hj, e⟩ | ⟨hx, hj, e⟩ <;> rw [e]
  · simp [hx]
  · simp [hj]
  · simp [hx, hj, eq_comm]

theorem parseChar_fault_iff (c : Byte) (s : State) (f : Fault) :
    parseChar c s = .fault f ↔ s.ph = .pay ∧ isHex c = true ∧ Config.payloadCapacity ≤ payloadIndex s.pos
      ∧ f = .noPayloadByte (payloadIndex s.pos) := by
  unfold parseChar
  cases hp : s.ph
  case pay => simp [parsePayload_fault_iff]
  all_goals simp

/-- CHAR faults on a payload digit of a run that PBUF has no byte for, and on nothing else. -/
theorem execChar_fault_iff (c : Byte) (s : State) (f : Fault) :
    execChar c s = .fault f ↔ s.runState = .running ∧ s.ph = .pay ∧ isHex c = true
      ∧ Config.payloadCapacity ≤ payloadIndex s.pos ∧ f = .noPayloadByte (payloadIndex s.pos) := by
  rcases execChar_cases c s with ⟨hr, e⟩ | ⟨hr | hr, e⟩ | ⟨-, hc, e⟩ | ⟨-, hc, e⟩ | ⟨hr, -, -, e⟩ <;> rw [e]
  · simp [hr]
  · simp [hr]
  · simp [hr]
  · simpa using fun _ _ hx => absurd hc (isHex_ne_lineEnd hx).1
  · simpa using fun _ _ hx => absurd hc (isHex_ne_lineEnd hx).2
  · simp [hr, parseChar_fault_iff]

theorem parseChar_answers_or_faults (c : Byte) (s : State) :
    (∃ t, parseChar c s = .next t) ∨ ∃ f, parseChar c s = .fault f := by
  unfold parseChar
  cases s.ph
  case pay =>
    rcases parsePayload_cases c s with ⟨-, e⟩ | ⟨-, -, e⟩ | ⟨-, -, e⟩
    · exact .inl ⟨_, e⟩
    · exact .inl ⟨_, e⟩
    · exact .inr ⟨_, e⟩
  all_goals exact .inl ⟨_, rfl⟩

theorem execChar_answers_or_faults (c : Byte) (s : State) :
    (∃ t, execChar c s = .next t) ∨ ∃ f, execChar c s = .fault f := by
  rcases execChar_cases c s with ⟨-, e⟩ | ⟨-, e⟩ | ⟨-, -, e⟩ | ⟨-, -, e⟩ | ⟨-, -, -, e⟩ <;> rw [e]
  case inr.inr.inr.inr => exact parseChar_answers_or_faults c s
  all_goals exact .inl ⟨_, rfl⟩

theorem execEoi_answers (s : State) : ∃ t, execEoi s = .next t := by
  rcases execEoi_cases s with ⟨-, e⟩ | ⟨-, e⟩ | ⟨-, -, e⟩ | ⟨-, -, e⟩ <;> exact ⟨_, e⟩

/-- Every command answers, but for a CHAR that faults. -/
theorem exec_command_answers_or_faults (c : Command) (s : State) :
    (∃ t, exec (commandInstr c) s = .next t)
      ∨ ∃ b f, exec (commandInstr c) s = .fault f ∧ execChar b s = .fault f := by
  cases c with
  | char b => exact (execChar_answers_or_faults b s).imp_right fun ⟨f, e⟩ => ⟨b, f, e, e⟩
  | eoi => exact .inl (execEoi_answers s)
  | nop | reset | start | crcInit | crcByte | illegal => exact .inl ⟨_, rfl⟩

/-- Every instruction answers, but for a CHAR that faults, the one a write to CMD carries included. -/
theorem exec_answers_or_faults (i : Instr) (s : State) :
    (∃ t, exec i s = .next t) ∨ ∃ b f, exec i s = .fault f ∧ execChar b s = .fault f := by
  cases i with
  | char b => exact exec_command_answers_or_faults (.char b) s
  | eoi => exact exec_command_answers_or_faults .eoi s
  | wrCmd w => rw [exec_wrCmd]; exact exec_command_answers_or_faults _ s
  | _ => exact .inl ⟨_, rfl⟩

/-- Settles O10: only CHAR can stop, by a fault, and not where PBUF has a byte for the position. -/
theorem everyInstructionAnswers : Obligations.EveryInstructionAnswers := by
  intro i s
  rcases exec_answers_or_faults i s with h | ⟨b, f, h, hf⟩
  · obtain ⟨t, e⟩ := h
    exact ⟨fun _ => ⟨t, e⟩, fun r => by rw [e]; nofun⟩
  · obtain ⟨hr, hp, -, hj, -⟩ := (execChar_fault_iff b s f).1 hf
    exact ⟨fun hready => absurd (hready hr hp) (Nat.not_lt.2 hj), fun r => by rw [h]; nofun⟩

/-- Settles O11: the fault's index is the payload index, which PBUF's capacity of 255 does not reach. -/
theorem charFaultsWithoutPayloadByte : Obligations.CharFaultsWithoutPayloadByte := by
  intro c s j
  refine (execChar_fault_iff c s _).trans ?_
  simp only [Fault.noPayloadByte.injEq]
  constructor
  · rintro ⟨hr, hp, hx, hj, rfl⟩
    exact ⟨hr, hp, hx, rfl, hj⟩
  · rintro ⟨hr, hp, hx, rfl, hj⟩
    exact ⟨hr, hp, hx, hj, rfl⟩

-- The fields of the registers as read.

theorem statusWord_fields (s : State) :
    (statusWord s).extractLsb' 0 2 = runStateCode s.runState ∧ (statusWord s).extractLsb' 6 2 = 0#2
      ∧ (statusWord s).extractLsb' 8 4 = fatalCode s.fatal ∧ (statusWord s).extractLsb' 12 20 = 0#20 := by
  simp (disch := decide) only [statusWord, BitVec.extractLsb'_append_eq_of_le, BitVec.extractLsb'_append_eq_of_add_le,
    BitVec.extractLsb'_eq_self, Nat.reduceSub, and_self]

theorem statusWord_flags (s : State) :
    (statusWord s).getLsbD 2 = s.bufValid ∧ (statusWord s).getLsbD 3 = s.anyHit
      ∧ (statusWord s).getLsbD 4 = s.termSeen ∧ (statusWord s).getLsbD 5 = s.cmdErr := by
  simp only [statusWord, BitVec.getLsbD_append]
  simp

theorem lineResultWord_fields (s : State) :
    (lineResultWord s).extractLsb' 0 4 = lineOutcomeCode s.lineOutcome ∧ (lineResultWord s).extractLsb' 4 4 = 0#4
      ∧ (lineResultWord s).extractLsb' 8 8 = s.lineRtype ∧ (lineResultWord s).extractLsb' 16 16 = 0#16 := by
  simp (disch := decide) only [lineResultWord, BitVec.extractLsb'_append_eq_of_le,
    BitVec.extractLsb'_append_eq_of_add_le, BitVec.extractLsb'_eq_self, Nat.reduceSub, and_self]

theorem parseStateWord_fields (s : State) :
    (parseStateWord s).extractLsb' 0 3 = phaseCode s.ph ∧ (parseStateWord s).extractLsb' 3 13 = 0#13
      ∧ (parseStateWord s).extractLsb' 16 10 = s.pos ∧ (parseStateWord s).extractLsb' 26 6 = 0#6 := by
  simp (disch := decide) only [parseStateWord, BitVec.extractLsb'_append_eq_of_le,
    BitVec.extractLsb'_append_eq_of_add_le, BitVec.extractLsb'_eq_self, Nat.reduceSub, and_self]

/-- Settles O19: each field of STATUS lies at its bits, and its code is the one of R24 or R29. -/
theorem statusReadsByBits : Obligations.StatusReadsByBits := by
  intro s
  obtain ⟨hstate, hzero, hfatal, hhigh⟩ := statusWord_fields s
  obtain ⟨hvalid, hhit, hterm, herr⟩ := statusWord_flags s
  refine ⟨respond (statusWord s) s, rfl, ?_⟩
  rw [respond_readData]
  refine ⟨?_, hvalid, hhit, hterm, herr, hzero, ?_, hhigh, rfl⟩
  · rw [hstate]; cases s.runState <;> rfl
  · rw [hfatal]; cases s.fatal <;> rfl

/-- Settles O20: each field lies at its bits, and its code is the one of R37 or R45. -/
theorem lineResultAndParseStateReadByBits : Obligations.LineResultAndParseStateReadByBits := by
  intro s
  obtain ⟨hresult, hzero, hrtype, hhigh⟩ := lineResultWord_fields s
  obtain ⟨hph, hzero', hpos, hhigh'⟩ := parseStateWord_fields s
  refine ⟨⟨respond (lineResultWord s) s, rfl, ?_⟩, respond (parseStateWord s) s, rfl, ?_⟩ <;> rw [respond_readData]
  · refine ⟨?_, hzero, hrtype, hhigh, rfl⟩
    rw [hresult]
    rcases s.lineOutcome with _ | _ | _ | _ | _ | _ | k
    case error => cases k <;> rfl
    all_goals rfl
  · refine ⟨?_, hzero', hpos, hhigh', rfl⟩
    rw [hph]; cases s.ph <;> rfl

theorem maxWindowWord_toNat : maxWindowWord.toNat = Config.maxWindow := by
  rw [maxWindowWord, BitVec.toNat_ofNat, Nat.mod_eq_of_lt maxWindow_lt]

/-- Settles O22: the parameter fits the 32 bits of the register. -/
theorem maxWindowReadsTheParameter : Obligations.MaxWindowReadsTheParameter := by
  intro s
  refine ⟨respond maxWindowWord s, rfl, rfl, ?_⟩
  rw [respond_readData, maxWindowWord_toNat]
  exact ⟨rfl, one_le_maxWindow, Nat.le_sub_one_of_lt maxWindow_lt⟩

end Sys2Proof.Proofs.Answers
end

section
/-! PROOFS. What each step can write (10_state R24 to R44): one inversion of the step by what it does to the registers, and
from it who writes each register. -/

namespace Sys2Proof.Proofs.Writers

open Sys2Proof.Machine Sys2Proof.Claims

-- The four shapes of a step.

/-- The next access is a command error: an illegal word, or CHAR or EOI in IDLE (60_exceptions R235). -/
def IsCommandError (s : State) : Prop :=
  (∃ w, nextIs s (.illegal w)) ∨ (s.runState = .idle ∧ ((∃ c, nextIs s (.char c)) ∨ nextIs s .eoi))

/-- A step that is no RESET and no START and ends no line and no run: it writes only the parser's elements, the host's
registers and what is the host's own, CRC_STATE by the engine's two commands, and CMD_ERR by a command error. -/
structure Quiet (s t : State) : Prop where
  frame : t = { s with
    cmdErr := t.cmdErr, crcState := t.crcState, winStart := t.winStart, winSize := t.winSize, bufIndex := t.bufIndex
    ph := t.ph, pos := t.pos, bc := t.bc, off := t.off, rtype := t.rtype, pbuf := t.pbuf
    pending := t.pending, readData := t.readData }
  cmdErr : t.cmdErr = s.cmdErr ∨ (IsCommandError s ∧ t.cmdErr = true)
  crcState : t.crcState = s.crcState ∨ (nextIs s .crcInit ∧ t.crcState = Config.crcOnes)
    ∨ ∃ b, nextIs s (.crcByte b) ∧ t.crcState = crcUpdate s.crcState b
  winStart : t.winStart = s.winStart ∨ ∃ rest, s.pending = writeAccess 0x08#6 t.winStart :: rest
  winSize : t.winSize = s.winSize ∨ ∃ rest, s.pending = writeAccess 0x0C#6 t.winSize :: rest
  bufIndex : t.bufIndex = s.bufIndex ∨ ∃ rest, s.pending = writeAccess 0x30#6 t.bufIndex :: rest

/-- The next access ends a line: LF, or EOI on a pending line (41_memory R151, 42_window R175). -/
def EndsLine (s : State) : Prop :=
  nextIs s (.char 0x0A#8) ∨ (nextIs s .eoi ∧ s.ph ≠ .ls)

/-- A step of a run that ends a line, the run, or first the one and then the other; `v` is the state between. -/
structure RunEnd (s t : State) : Prop where
  running : s.runState = .running
  access  : nextIs s (.char 0x0A#8) ∨ nextIs s .eoi
  effect  : ∃ rest v,
    ((EndsLine s ∧ v = endOfLine { s with pending := rest }) ∨ (s.ph = .ls ∧ v = { s with pending := rest }))
      ∧ (t = v ∨ (nextIs s .eoi ∧ v.runState = .running ∧ t = finish v))

/-- What a step does to the registers. -/
inductive StepEffect (s : State) : State → Prop
  | quiet {t : State} (h : Quiet s t) : StepEffect s t
  | reset (rest : List Access) (hc : nextIs s .reset) : StepEffect s (resetBlock { s with pending := rest })
  | start (rest : List Access) (hc : nextIs s .start) :
      StepEffect s (startRun Config.maxWindow { s with pending := rest })
  | runEnd {t : State} (h : RunEnd s t) : StepEffect s t

theorem step_effect_of_command {c : Command} {s t : State} {rest : List Access} (hc : nextIs s c)
    (h : exec (commandInstr c) { s with pending := rest } = .next t) : StepEffect s t := by
  rcases command_effect h with rfl | ⟨rfl, hcause⟩ | ⟨rfl, rfl⟩ | ⟨rfl, rfl⟩ | ⟨hcrc, e⟩ | ⟨b, rfl, -, hb⟩
    | ⟨hr, rfl, hl⟩ | ⟨hr, rfl, hp, rfl⟩ | ⟨hr, rfl, hp, hv, rfl⟩
  · exact .quiet ⟨rfl, .inl rfl, .inl rfl, .inl rfl, .inl rfl, .inl rfl⟩
  · refine .quiet ⟨rfl, .inr ⟨?_, rfl⟩, .inl rfl, .inl rfl, .inl rfl, .inl rfl⟩
    rcases hcause with ⟨w, rfl⟩ | ⟨hi, ⟨b, rfl⟩ | rfl⟩
    · exact .inl ⟨w, hc⟩
    · exact .inr ⟨hi, .inl ⟨b, hc⟩⟩
    · exact .inr ⟨hi, .inr hc⟩
  · exact .reset rest hc
  · exact .start rest hc
  · refine .quiet ⟨by rw [e], .inl (congrArg State.cmdErr e :), .inr ?_, .inl (congrArg State.winStart e :),
      .inl (congrArg State.winSize e :), .inl (congrArg State.bufIndex e :)⟩
    rcases hcrc with ⟨rfl, hv⟩ | ⟨b, rfl, hv⟩
    · exact .inl ⟨hc, hv⟩
    · exact .inr ⟨b, hc, hv⟩
  · have e := parseChar_frame hb
    exact .quiet ⟨by rw [e], .inl (congrArg State.cmdErr e :), .inl (congrArg State.crcState e :),
      .inl (congrArg State.winStart e :), .inl (congrArg State.winSize e :), .inl (congrArg State.bufIndex e :)⟩
  · rcases hl with rfl | ⟨rfl, hp, -⟩
    · exact .runEnd ⟨hr, .inl hc, rest, _, .inl ⟨.inl hc, rfl⟩, .inl rfl⟩
    · exact .runEnd ⟨hr, .inr hc, rest, _, .inl ⟨.inr ⟨hc, hp⟩, rfl⟩, .inl rfl⟩
  · exact .runEnd ⟨hr, .inr hc, rest, _, .inr ⟨hp, rfl⟩, .inr ⟨hc, hr, rfl⟩⟩
  · exact .runEnd ⟨hr, .inr hc, rest, _, .inl ⟨.inr ⟨hc, hp⟩, rfl⟩, .inr ⟨hc, hv, rfl⟩⟩

theorem step_effect {s t : State} (h : step s = .next t) : StepEffect s t := by
  rcases step_cases h with ⟨-, rfl⟩ | ⟨a, rest, hp, he⟩
  · exact .quiet ⟨rfl, .inl rfl, .inl rfl, .inl rfl, .inl rfl, .inl rfl⟩
  · rcases he with ⟨-, v, rfl⟩ | ⟨ha, rfl⟩ | ⟨ha, rfl⟩ | ⟨ha, rfl⟩ | ⟨-, rfl⟩ | ⟨c, ha, hc⟩
    · exact .quiet ⟨rfl, .inl rfl, .inl rfl, .inl rfl, .inl rfl, .inl rfl⟩
    · exact .quiet ⟨rfl, .inl rfl, .inl rfl, .inr ⟨rest, hp.trans (congrArg (· :: rest) ha)⟩, .inl rfl, .inl rfl⟩
    · exact .quiet ⟨rfl, .inl rfl, .inl rfl, .inl rfl, .inr ⟨rest, hp.trans (congrArg (· :: rest) ha)⟩, .inl rfl⟩
    · exact .quiet ⟨rfl, .inl rfl, .inl rfl, .inl rfl, .inl rfl, .inr ⟨rest, hp.trans (congrArg (· :: rest) ha)⟩⟩
    · exact .quiet ⟨rfl, .inl rfl, .inl rfl, .inl rfl, .inl rfl, .inl rfl⟩
    · exact step_effect_of_command ⟨a, rest, hp, ha⟩ hc

-- START, in two cases.

/-- START rejects with one of the three window codes, or accepts (42_window R170 to R174). -/
theorem startRun_rejects_or_accepts (n : Nat) (s : State) :
    (∃ code, (code = .winZero ∨ code = .winOverflow ∨ code = .winTooLarge)
        ∧ startRun n s = fatalError code { clearRun s with bufValid := false })
      ∨ startRun n s = acceptWindow (clearRun s) := by
  rcases startRun_cases n s with ⟨-, e⟩ | ⟨-, -, e⟩ | ⟨-, -, -, e⟩ | ⟨-, -, -, e⟩
  · exact .inl ⟨_, .inl rfl, e⟩
  · exact .inl ⟨_, .inr (.inl rfl), e⟩
  · exact .inl ⟨_, .inr (.inr rfl), e⟩
  · exact .inr e

/-- START writes the run and its line registers, and neither the host's registers, CMD_ERR nor the CRC engine's. -/
theorem startRun_frame (n : Nat) (s : State) :
    startRun n s = { clearRun s with
      runState := (startRun n s).runState, bufValid := (startRun n s).bufValid, fatal := (startRun n s).fatal
      actStart := (startRun n s).actStart, actSize := (startRun n s).actSize, wbuf := (startRun n s).wbuf } := by
  rcases startRun_rejects_or_accepts n s with ⟨code, -, e⟩ | e <;> rw [e] <;> rfl

-- The end of a line, register by register.

theorem endOfLine_highBase (s : State) :
    (endOfLine s).highBase = s.highBase
      ∨ (s.ph = .trl ∧ s.rtype = 0x04#8 ∧ 2 ≤ s.bc.toNat ∧ (endOfLine s).highBase = elaBase s) := by
  rcases endOfLine_effect s with ⟨o, r, ec, el, e, -⟩ | ⟨-, -, e⟩ | ⟨hp, ht, hb, e⟩ | ⟨-, -, e⟩ <;> rw [e]
  · exact .inl rfl
  · exact .inl rfl
  · exact .inr ⟨hp, ht, hb, rfl⟩
  · exact .inl (finish_highBase _)

theorem endOfLine_anyHit (s : State) :
    (endOfLine s).anyHit = s.anyHit ∨ (s.ph = .trl ∧ s.rtype = 0x00#8 ∧ (endOfLine s).anyHit = true) := by
  rcases endOfLine_effect s with ⟨o, r, ec, el, e, -⟩ | ⟨hp, ht, e⟩ | ⟨-, -, -, e⟩ | ⟨-, -, e⟩ <;> rw [e]
  · exact .inl rfl
  · cases hany : (List.range s.bc.toNat).any (payloadHits s)
    · exact .inl (Bool.or_false _)
    · exact .inr ⟨hp, ht, Bool.or_true _⟩
  · exact .inl rfl
  · exact .inl (finish_anyHit _)

theorem endOfLine_termSeen (s : State) :
    (endOfLine s).termSeen = s.termSeen ∨ (s.ph = .trl ∧ s.rtype = 0x01#8 ∧ (endOfLine s).termSeen = true) := by
  rcases endOfLine_effect s with ⟨o, r, ec, el, e, -⟩ | ⟨-, -, e⟩ | ⟨-, -, -, e⟩ | ⟨hp, ht, e⟩ <;> rw [e]
  · exact .inl rfl
  · exact .inl rfl
  · exact .inl rfl
  · exact .inr ⟨hp, ht, finish_termSeen _⟩

/-- A line counts at most one error, with its own number. -/
theorem endOfLine_errors (s : State) :
    ((endOfLine s).errCount = s.errCount ∧ (endOfLine s).errLine = s.errLine)
      ∨ ((endOfLine s).errCount = s.errCount + 1#32 ∧ (endOfLine s).errLine = (endOfLine s).lineCount) := by
  rw [endOfLine_lineCount]
  rcases endOfLine_effect s with ⟨o, r, ec, el, e, h⟩ | ⟨-, -, e⟩ | ⟨-, -, -, e⟩ | ⟨-, -, e⟩ <;> rw [e]
  · exact h
  · exact .inl ⟨rfl, rfl⟩
  · exact .inl ⟨rfl, rfl⟩
  · exact .inl ⟨finish_errCount _, finish_errLine _⟩

-- How a run can come out of a line end or a finish.

/-- The run goes on, ends in DONE with the checksum of the window's bytes, or ends in FAILED with EMPTY. -/
inductive RunOutcome (s t : State) : Prop
  | going (hrun : t.runState = s.runState) (hfatal : t.fatal = s.fatal) (hsum : t.checksum = s.checksum)
      (hcrc : t.crcState = s.crcState)
  | done (hrun : t.runState = .done) (hfatal : t.fatal = s.fatal)
      (hsum : t.checksum = crc32 (t.wbuf.bytes t.actSize.toNat))
      (hcrc : t.crcState = crcFeed Config.crcOnes (t.wbuf.bytes t.actSize.toNat))
  | failed (hrun : t.runState = .failed) (hfatal : t.fatal = .empty) (hsum : t.checksum = s.checksum)
      (hcrc : t.crcState = s.crcState)

/-- An outcome is one of any earlier state that agrees on the four registers. -/
theorem RunOutcome.of_eq {r s t : State} (h : RunOutcome s t) (hrun : s.runState = r.runState)
    (hfatal : s.fatal = r.fatal) (hsum : s.checksum = r.checksum) (hcrc : s.crcState = r.crcState) :
    RunOutcome r t := by
  cases h with
  | going h1 h2 h3 h4 => exact .going (h1.trans hrun) (h2.trans hfatal) (h3.trans hsum) (h4.trans hcrc)
  | done h1 h2 h3 h4 => exact .done h1 (h2.trans hfatal) h3 h4
  | failed h1 h2 h3 h4 => exact .failed h1 h2 (h3.trans hsum) (h4.trans hcrc)

theorem finish_outcome (s : State) : RunOutcome s (finish s) := by
  rcases finish_cases s with ⟨-, e⟩ | ⟨-, e⟩ <;> rw [e]
  · exact .done rfl rfl rfl rfl
  · exact .failed rfl rfl rfl rfl

theorem endOfLine_outcome (s : State) : RunOutcome s (endOfLine s) := by
  rcases endOfLine_effect s with ⟨o, r, ec, el, e, -⟩ | ⟨-, -, e⟩ | ⟨-, -, -, e⟩ | ⟨-, -, e⟩ <;> rw [e]
  · exact .going rfl rfl rfl rfl
  · exact .going rfl rfl rfl rfl
  · exact .going rfl rfl rfl rfl
  · exact (finish_outcome _).of_eq rfl rfl rfl rfl

-- The end of a line or a run, register by register.

namespace RunEnd

variable {s t : State}

theorem outcome (h : RunEnd s t) : RunOutcome s t := by
  obtain ⟨hr, -, rest, v, hv, ht⟩ := h
  have hsv : RunOutcome s v := by
    rcases hv with ⟨-, rfl⟩ | ⟨-, rfl⟩
    · exact (endOfLine_outcome _).of_eq rfl rfl rfl rfl
    · exact .going rfl rfl rfl rfl
  rcases ht with rfl | ⟨-, hvr, rfl⟩
  · exact hsv
  · cases hsv with
    | going h1 h2 h3 h4 => exact (finish_outcome v).of_eq h1 h2 h3 h4
    | done h1 => exact absurd (h1.symm.trans hvr) nofun
    | failed h1 => exact absurd (h1.symm.trans hvr) nofun

/-- What no line end and no finish writes. -/
theorem keeps (h : RunEnd s t) :
    (t.bufValid = s.bufValid ∧ t.cmdErr = s.cmdErr ∧ t.actStart = s.actStart ∧ t.actSize = s.actSize)
      ∧ t.winStart = s.winStart ∧ t.winSize = s.winSize ∧ t.bufIndex = s.bufIndex := by
  obtain ⟨-, -, rest, v, ⟨-, rfl⟩ | ⟨-, rfl⟩, rfl | ⟨-, -, rfl⟩⟩ := h <;> simp

/-- A finish writes none of the registers that only a line end writes. -/
theorem line (h : RunEnd s t) : ∃ v, (v = s ∨ ∃ rest, EndsLine s ∧ v = endOfLine { s with pending := rest })
    ∧ t.highBase = v.highBase ∧ t.anyHit = v.anyHit ∧ t.termSeen = v.termSeen ∧ t.lineCount = v.lineCount
    ∧ t.lineOutcome = v.lineOutcome ∧ t.lineRtype = v.lineRtype ∧ t.errCount = v.errCount ∧ t.errLine = v.errLine := by
  obtain ⟨-, -, rest, v, ⟨hl, rfl⟩ | ⟨-, rfl⟩, ht⟩ := h
  · refine ⟨_, .inr ⟨rest, hl, rfl⟩, ?_⟩
    rcases ht with rfl | ⟨-, -, rfl⟩ <;> simp
  · refine ⟨s, .inl rfl, ?_⟩
    rcases ht with rfl | ⟨-, -, rfl⟩ <;> simp

theorem highBase (h : RunEnd s t) : t.highBase = s.highBase
    ∨ (s.ph = .trl ∧ s.rtype = 0x04#8 ∧ 2 ≤ s.bc.toNat ∧ t.highBase = elaBase s) := by
  obtain ⟨v, rfl | ⟨rest, -, rfl⟩, e, -⟩ := h.line <;> rw [e]
  · exact .inl rfl
  · exact endOfLine_highBase { s with pending := rest }

theorem anyHit (h : RunEnd s t) :
    t.anyHit = s.anyHit ∨ (s.ph = .trl ∧ s.rtype = 0x00#8 ∧ t.anyHit = true) := by
  obtain ⟨v, rfl | ⟨rest, -, rfl⟩, -, e, -⟩ := h.line <;> rw [e]
  · exact .inl rfl
  · exact endOfLine_anyHit { s with pending := rest }

theorem termSeen (h : RunEnd s t) :
    t.termSeen = s.termSeen ∨ (s.ph = .trl ∧ s.rtype = 0x01#8 ∧ t.termSeen = true) := by
  obtain ⟨v, rfl | ⟨rest, -, rfl⟩, -, -, e, -⟩ := h.line <;> rw [e]
  · exact .inl rfl
  · exact endOfLine_termSeen { s with pending := rest }

theorem lineRegisters (h : RunEnd s t) :
    (t.lineCount = s.lineCount ∧ t.lineOutcome = s.lineOutcome ∧ t.lineRtype = s.lineRtype
        ∧ t.errCount = s.errCount ∧ t.errLine = s.errLine)
      ∨ (EndsLine s ∧ t.lineCount = s.lineCount + 1#32
          ∧ ((t.errCount = s.errCount ∧ t.errLine = s.errLine)
            ∨ (t.errCount = s.errCount + 1#32 ∧ t.errLine = t.lineCount))) := by
  obtain ⟨v, rfl | ⟨rest, hl, rfl⟩, -, -, -, hcount, hout, hrtype, herr, hline⟩ := h.line
  · exact .inl ⟨hcount, hout, hrtype, herr, hline⟩
  · rw [herr, hline, hcount]
    exact .inr ⟨hl, endOfLine_lineCount _, endOfLine_errors { s with pending := rest }⟩

end RunEnd

-- Who writes each register.

/-- Settles O47: a START runs or fails, and a run that does not go on is over in DONE or FAILED. -/
theorem runStateWriters : Obligations.RunStateWriters := by
  intro s t hstep hne
  cases step_effect hstep with
  | quiet h => exact absurd (congrArg State.runState h.frame :) hne
  | reset rest hc => exact .inr (.inl ⟨hc, rfl⟩)
  | start rest hc =>
    refine .inl ⟨hc, ?_⟩
    rcases startRun_rejects_or_accepts Config.maxWindow { s with pending := rest } with ⟨code, -, e⟩ | e <;> rw [e]
    · exact .inr rfl
    · exact .inl rfl
  | runEnd h =>
    refine .inr (.inr ⟨h.running, h.access, ?_⟩)
    cases h.outcome with
    | going hrun => exact absurd hrun hne
    | done hrun => exact .inl hrun
    | failed hrun => exact .inr hrun

/-- Settles O48: in a run only the commit of an Extended-High-Address record writes HIGH_BASE. -/
theorem highBaseWriters : Obligations.HighBaseWriters := by
  intro s t hstep hne
  cases step_effect hstep with
  | quiet h => exact absurd (congrArg State.highBase h.frame :) hne
  | reset rest hc => exact .inl ⟨.inr hc, rfl⟩
  | start rest hc => exact .inl ⟨.inl hc, by rw [startRun_frame]; rfl⟩
  | runEnd h =>
    obtain ⟨hp, ht, hb, e⟩ := h.highBase.resolve_left hne
    exact .inr ⟨h.access, h.running, hp, ht, hb, e⟩

/-- Settles O49: a START that rejects leaves the active window too. -/
theorem activeWindowWriters : Obligations.ActiveWindowWriters := by
  intro s t hstep
  cases step_effect hstep with
  | quiet h =>
    rw [h.frame]
    exact .inl ⟨rfl, rfl⟩
  | reset rest hc => exact .inr (.inl ⟨hc, rfl, rfl⟩)
  | start rest hc =>
    rcases startRun_rejects_or_accepts Config.maxWindow { s with pending := rest } with ⟨code, -, e⟩ | e <;> rw [e]
    · exact .inl ⟨rfl, rfl⟩
    · exact .inr (.inr ⟨hc, rfl, rfl, rfl⟩)
  | runEnd h =>
    obtain ⟨⟨-, -, hstart, hsize⟩, -⟩ := h.keeps
    exact .inl ⟨hstart, hsize⟩

/-- Settles O50: of the outcomes of a run's end only DONE writes CHECKSUM. -/
theorem checksumWriters : Obligations.ChecksumWriters := by
  intro s t hstep hne
  cases step_effect hstep with
  | quiet h => exact absurd (congrArg State.checksum h.frame :) hne
  | reset rest hc => exact .inl ⟨.inr hc, rfl⟩
  | start rest hc => exact .inl ⟨.inl hc, by rw [startRun_frame]; rfl⟩
  | runEnd h =>
    cases h.outcome with
    | going _ _ hsum => exact absurd hsum hne
    | done hrun _ hsum => exact .inr ⟨h.running, h.access, hrun, hsum⟩
    | failed _ _ hsum => exact absurd hsum hne

/-- Settles O51: the checksum is the raw register with the final XOR, so CRC_RESULT after DONE is CHECKSUM. -/
theorem crcStateWriters : Obligations.CrcStateWriters := by
  intro s t hstep hne
  cases step_effect hstep with
  | quiet h =>
    rcases h.crcState with e | ⟨hc, e⟩ | h
    · exact absurd e hne
    · exact .inl ⟨.inl hc, e⟩
    · exact .inr (.inl h)
  | reset rest hc => exact .inl ⟨.inr hc, rfl⟩
  | start rest hc => exact absurd (by rw [startRun_frame]; rfl) hne
  | runEnd h =>
    cases h.outcome with
    | going _ _ _ hcrc => exact absurd hcrc hne
    | done hrun _ hsum hcrc =>
      exact .inr (.inr ⟨h.running, h.access, hrun, hcrc, by rw [crcResultWord, hcrc, hsum, crc32]⟩)
    | failed _ _ _ hcrc => exact absurd hcrc hne

theorem lineResultWord_eq_zero {s : State} (ho : s.lineOutcome = .noLine) (hr : s.lineRtype = 0x00#8) :
    lineResultWord s = 0#32 := by
  rw [lineResultWord, ho, hr]
  rfl

/-- Settles O53: an EOI with no pending line ends the run but no line. -/
theorem lineRegisterWriters : Obligations.LineRegisterWriters := by
  intro s t hstep
  cases step_effect hstep with
  | quiet h =>
    rw [h.frame]
    exact .inl ⟨rfl, rfl, rfl, rfl, rfl⟩
  | reset rest hc => exact .inr (.inl ⟨.inr hc, rfl, lineResultWord_eq_zero rfl rfl, rfl, rfl⟩)
  | start rest hc =>
    rw [startRun_frame]
    exact .inr (.inl ⟨.inl hc, rfl, lineResultWord_eq_zero rfl rfl, rfl, rfl⟩)
  | runEnd h =>
    rcases h.lineRegisters with hsame | ⟨hl, hcount, herr⟩
    · exact .inl hsame
    · exact .inr (.inr ⟨h.running, hl, hcount, herr⟩)

/-- Settles O17: an error that does not wrap ERR_COUNT leaves it non-zero, and nothing else writes ERR_LINE but to clear
it. -/
theorem noErrorsNoErrorLine : Obligations.NoErrorsNoErrorLine := by
  intro s t hs hmax hstep hzero
  rcases lineRegisterWriters s t hstep with ⟨-, -, -, hcount, hline⟩ | ⟨-, -, -, -, hline⟩ |
    ⟨-, -, -, ⟨hcount, hline⟩ | ⟨hcount, -⟩⟩
  · rw [hline]; exact hs (hcount.symm.trans hzero)
  · exact hline
  · rw [hline]; exact hs (hcount.symm.trans hzero)
  · have hwrap : s.errCount + 1#32 = 0#32 := hcount.symm.trans hzero
    exact absurd (by bv_omega) hmax

theorem cmdErr_writers {s t : State} (hstep : step s = .next t) :
    t.cmdErr = s.cmdErr ∨ (nextIs s .reset ∧ t.cmdErr = false) ∨ (IsCommandError s ∧ t.cmdErr = true) := by
  cases step_effect hstep with
  | quiet h => exact h.cmdErr.imp_right .inr
  | reset rest hc => exact .inr (.inl ⟨hc, rfl⟩)
  | start rest hc => exact .inl (by rw [startRun_frame]; rfl)
  | runEnd h =>
    obtain ⟨⟨-, e, -⟩, -⟩ := h.keeps
    exact .inl e

/-- Settles O54: CMD_ERR is written by a command error, which sets it, and by RESET, which clears it. -/
theorem commandErrorIsSticky : Obligations.CommandErrorIsSticky := by
  intro s t hstep
  rcases cmdErr_writers hstep with e | ⟨hc, e⟩ | ⟨hcause, e⟩ <;> rw [e]
  · exact ⟨.inl, fun h0 h1 => absurd (h0.symm.trans h1) nofun⟩
  · exact ⟨fun _ => .inr hc, fun _ => nofun⟩
  · exact ⟨fun _ => .inl rfl, fun _ _ => hcause⟩

/-- Settles O55: in no other step is any of the three written. -/
theorem hostRegisterWriters : Obligations.HostRegisterWriters := by
  intro s t hstep
  cases step_effect hstep with
  | quiet h =>
    exact ⟨fun hne => .inr (h.bufIndex.resolve_left hne), fun hne => .inr (h.winStart.resolve_left hne),
      fun hne => .inr (h.winSize.resolve_left hne)⟩
  | reset rest hc => exact ⟨fun _ => .inl hc, fun _ => .inl hc, fun _ => .inl hc⟩
  | start rest hc =>
    rw [startRun_frame]
    exact ⟨absurd rfl, absurd rfl, absurd rfl⟩
  | runEnd h =>
    obtain ⟨-, hstart, hsize, hindex⟩ := h.keeps
    exact ⟨absurd hindex, absurd hstart, absurd hsize⟩

-- The four run flags.

theorem anyHit_writers {s t : State} (hstep : step s = .next t) (hne : t.anyHit ≠ s.anyHit) :
    ((nextIs s .start ∨ nextIs s .reset) ∧ t.anyHit = false)
      ∨ (RunEnd s t ∧ s.ph = .trl ∧ s.rtype = 0x00#8 ∧ t.anyHit = true) := by
  cases step_effect hstep with
  | quiet h => exact absurd (congrArg State.anyHit h.frame :) hne
  | reset rest hc => exact .inl ⟨.inr hc, rfl⟩
  | start rest hc => exact .inl ⟨.inl hc, by rw [startRun_frame]; rfl⟩
  | runEnd h => exact .inr ⟨h, h.anyHit.resolve_left hne⟩

theorem termSeen_writers {s t : State} (hstep : step s = .next t) (hne : t.termSeen ≠ s.termSeen) :
    ((nextIs s .start ∨ nextIs s .reset) ∧ t.termSeen = false)
      ∨ (RunEnd s t ∧ s.ph = .trl ∧ s.rtype = 0x01#8 ∧ t.termSeen = true) := by
  cases step_effect hstep with
  | quiet h => exact absurd (congrArg State.termSeen h.frame :) hne
  | reset rest hc => exact .inl ⟨.inr hc, rfl⟩
  | start rest hc => exact .inl ⟨.inl hc, by rw [startRun_frame]; rfl⟩
  | runEnd h => exact .inr ⟨h, h.termSeen.resolve_left hne⟩

theorem bufValid_writers {s t : State} (hstep : step s = .next t) (hne : t.bufValid ≠ s.bufValid) :
    (nextIs s .start ∧ t.runState = .running ∧ t.bufValid = true)
      ∨ (nextIs s .start ∧ t.runState = .failed ∧ t.bufValid = false)
      ∨ (nextIs s .reset ∧ t.bufValid = false) := by
  cases step_effect hstep with
  | quiet h => exact absurd (congrArg State.bufValid h.frame :) hne
  | reset rest hc => exact .inr (.inr ⟨hc, rfl⟩)
  | start rest hc =>
    rcases startRun_rejects_or_accepts Config.maxWindow { s with pending := rest } with ⟨code, -, e⟩ | e <;> rw [e]
    · exact .inr (.inl ⟨hc, rfl, rfl⟩)
    · exact .inl ⟨hc, rfl, rfl⟩
  | runEnd h =>
    obtain ⟨⟨e, -⟩, -⟩ := h.keeps
    exact absurd e hne

theorem fatal_writers {s t : State} (hstep : step s = .next t) (hne : t.fatal ≠ s.fatal) :
    (nextIs s .start ∧ t.runState = .running ∧ t.fatal = .noError)
      ∨ (nextIs s .start ∧ t.runState = .failed
          ∧ (t.fatal = .winZero ∨ t.fatal = .winOverflow ∨ t.fatal = .winTooLarge))
      ∨ (nextIs s .reset ∧ t.fatal = .noError)
      ∨ (RunEnd s t ∧ t.runState = .failed ∧ t.fatal = .empty) := by
  cases step_effect hstep with
  | quiet h => exact absurd (congrArg State.fatal h.frame :) hne
  | reset rest hc => exact .inr (.inr (.inl ⟨hc, rfl⟩))
  | start rest hc =>
    rcases startRun_rejects_or_accepts Config.maxWindow { s with pending := rest } with ⟨code, hcode, e⟩ | e <;> rw [e]
    · exact .inr (.inl ⟨hc, rfl, hcode⟩)
    · exact .inl ⟨hc, rfl, rfl⟩
  | runEnd h =>
    cases h.outcome with
    | going _ hfatal => exact absurd hfatal hne
    | done _ hfatal => exact absurd hfatal hne
    | failed hrun hfatal => exact .inr (.inr (.inr ⟨h, hrun, hfatal⟩))

/-- Settles O52, flag by flag. -/
theorem runFlagWriters : Obligations.RunFlagWriters := by
  intro s t hstep restart lineEnd
  have ends (h : RunEnd s t) : lineEnd := ⟨h.running, h.access⟩
  exact ⟨fun hne => (anyHit_writers hstep hne).imp_right (And.imp_left ends),
    fun hne => (termSeen_writers hstep hne).imp_right (And.imp_left ends), bufValid_writers hstep,
    fun hne => (fatal_writers hstep hne).imp_right (.imp_right (.imp_right (And.imp_left ends)))⟩

end Sys2Proof.Proofs.Writers
end

section
/-! PROOFS. The bus: which of the host's accesses the block has a row and so a step for (20_memory R61, R62; 30_encoding
R107), and what a read leaves as it was (20_memory R64). -/

namespace Sys2Proof.Proofs.Bus

open Sys2Proof.Machine

-- Which offsets have a row.

theorem readRow_isSome_iff : ∀ o : BitVec 6, (readRow o).isSome = true ↔ o.toNat % 4 = 0 := by decide

theorem writeRow_of_mem_readOnlyOffsets {o : BitVec 6} (h : o ∈ readOnlyOffsets) (w : Word) :
    writeRow o w = some (.wrIgnored o w) := by
  revert o
  simp only [readOnlyOffsets, List.forall_mem_cons]
  exact ⟨rfl, rfl, rfl, rfl, rfl, rfl, rfl, rfl, rfl, rfl, rfl, rfl, nofun⟩

/-- A multiple of 4 is one of the four registers the host can write, or is read-only. -/
theorem toNat_mod_four_iff : ∀ o : BitVec 6,
    o.toNat % 4 = 0 ↔ o ∈ [0x00#6, 0x08#6, 0x0C#6, 0x30#6] ∨ o ∈ readOnlyOffsets := by decide

theorem writeRow_isSome_iff (o : BitVec 6) (w : Word) : (writeRow o w).isSome = true ↔ o.toNat % 4 = 0 := by
  rw [toNat_mod_four_iff]
  constructor
  · intro h
    obtain ⟨i, hi⟩ := Option.isSome_iff_exists.1 h
    rcases writeRow_cases hi with ⟨rfl, -⟩ | ⟨rfl, -⟩ | ⟨rfl, -⟩ | ⟨rfl, -⟩ | ⟨ho, -⟩
    case inr.inr.inr.inr => exact .inr (List.contains_iff_mem.1 ho)
    all_goals simp
  · rintro (h | h)
    · simp only [List.mem_cons, List.not_mem_nil, or_false] at h
      rcases h with rfl | rfl | rfl | rfl <;> rfl
    · rw [writeRow_of_mem_readOnlyOffsets h, Option.isSome_some]

/-- In either direction the offsets with a row are the multiples of 4. -/
theorem busRow_isSome_iff (d : Dir) (o : BitVec 6) (w : Word) : (busRow d o w).isSome = true ↔ o.toNat % 4 = 0 :=
  match d with
  | .read => readRow_isSome_iff o
  | .write => writeRow_isSome_iff o w

-- Which accesses decode.

/-- The converse of `decodeAccess_ok`. -/
theorem decodeAccess_of_busRow {a : Access} {i : Instr} (hw : a.width = .w32) (h0 : 0 ≤ a.offset) (h1 : a.offset < 64)
    (hr : busRow a.dir (BitVec.ofInt 6 a.offset) a.data = some i) : decodeAccess a = .ok i := by
  have hwin : ¬ (a.offset < 0 ∨ 64 ≤ a.offset) := by omega
  simp [decodeAccess, hw, hwin, hr]

theorem decodeAccess_writeAccess {o : BitVec 6} {w : Word} {i : Instr} (h : writeRow o w = some i) :
    decodeAccess (writeAccess o w) = .ok i := by
  have ho : BitVec.ofInt 6 (o.toNat : Int) = o := by rw [BitVec.ofInt_natCast, BitVec.ofNat_toNat, BitVec.setWidth_eq]
  have hlt := o.isLt
  refine decodeAccess_of_busRow rfl (Int.natCast_nonneg _) ?_ ?_
  · simp only [writeAccess]; omega
  · simp only [writeAccess, busRow, ho, h]

/-- The accesses that decode are those R62 admits: inside the window the offset's six bits are the offset itself. -/
theorem exists_decodeAccess_ok_iff (a : Access) :
    (∃ i, decodeAccess a = .ok i) ↔ a.width = .w32 ∧ 0 ≤ a.offset ∧ a.offset ≤ 0x3C ∧ a.offset % 4 = 0 := by
  have hbits : (BitVec.ofInt 6 a.offset).toNat = (a.offset % 64).toNat := BitVec.toNat_ofInt a.offset
  constructor
  · rintro ⟨i, hi⟩
    obtain ⟨hw, h0, h1, hr⟩ := decodeAccess_ok hi
    have hrow := (busRow_isSome_iff _ _ _).1 (Option.isSome_iff_exists.2 ⟨i, hr⟩)
    exact ⟨hw, h0, by omega, by omega⟩
  · rintro ⟨hw, h0, h1, h4⟩
    obtain ⟨i, hr⟩ := Option.isSome_iff_exists.1
      ((busRow_isSome_iff a.dir (BitVec.ofInt 6 a.offset) a.data).2 (by omega))
    exact ⟨i, decodeAccess_of_busRow hw h0 (by omega) hr⟩

/-- Settles O4: each read and each of the four writable registers by its row, the twelve others by their one row. -/
theorem busOffsetsHaveTheirRows : Obligations.BusOffsetsHaveTheirRows :=
  ⟨rfl, fun w => ⟨rfl, rfl, rfl, rfl,
    fun _ ho => decodeAccess_writeAccess (writeRow_of_mem_readOnlyOffsets ho w)⟩⟩

-- Which accesses have a step, and what a read's step leaves as it was.

theorem step_of_decodeAccess_error {s : State} {a : Access} {rest : List Access} {why : BadAccess}
    (hp : s.pending = a :: rest) (hd : decodeAccess a = .error why) : step s = .refused (.notAnAccess why) := by
  simp [step, Scope.takeAccess_cons hp, hd]

/-- The step refuses the next access exactly when it does not decode: no instruction refuses. -/
theorem step_refused_iff {s : State} {a : Access} {rest : List Access} (hp : s.pending = a :: rest) :
    (∃ why, step s = .refused (.notAnAccess why)) ↔ ¬ ∃ i, decodeAccess a = .ok i := by
  cases hd : decodeAccess a with
  | ok i =>
    rw [Scope.stepRunsDecodedInstruction s a rest i hp hd]
    simp [(Answers.everyInstructionAnswers i { s with pending := rest }).2]
  | error why => simp [step_of_decodeAccess_error hp hd]

/-- Settles O9: the refused accesses are those that do not decode. -/
theorem onlyAlignedWordAccessesHaveAStep : Obligations.OnlyAlignedWordAccessesHaveAStep := by
  intro s a rest hp
  rw [step_refused_iff hp, exists_decodeAccess_ok_iff]

/-- Settles O23: an access that does not decode has no next state, and a read that does changes the answer alone. -/
theorem readsHaveNoSideEffect : Obligations.ReadsHaveNoSideEffect := by
  intro s t a rest hp hread hstep
  cases hd : decodeAccess a with
  | ok i =>
    rw [Scope.stepRunsDecodedInstruction s a rest i hp hd] at hstep
    obtain ⟨v, hv⟩ := exec_read hd hread { s with pending := rest }
    rw [hv] at hstep
    cases hstep
    rfl
  | error why => simp [step_of_decodeAccess_error hp hd] at hstep

end Sys2Proof.Proofs.Bus
end

section
/-! PROOFS. Encoding: the encoder and the decoder undo each other, which command words are illegal, and the hex digits
(30_encoding R92, R93, R95, R100, R108). -/

namespace Sys2Proof.Proofs.Encoding

open Sys2Proof.Machine

-- From an instruction to its encoding and back.

/-- A record row that keeps its code decodes to itself: its code is none of the three named ones. -/
theorem recordInstr_of_wellFormed {t : Byte} (h : (Instr.recIgnored t).wellFormed = true) :
    recordInstr t = .recIgnored t := by
  simp only [Instr.wellFormed, Bool.and_eq_true, bne_iff_ne] at h
  obtain ⟨⟨h0, h1⟩, h4⟩ := h
  rcases recordInstr_cases t with ⟨e, -⟩ | ⟨e, -⟩ | ⟨e, -⟩ | ⟨-, e⟩
  · exact absurd e h0
  · exact absurd e h1
  · exact absurd e h4
  · exact e

theorem decode_command_of_eq {w : Word} {c : Command} (h : decodeCommand w = c) :
    decode (.command w) = .ok (commandInstr c) := by
  rw [decode, h]

/-- Settles O1: a row without an operand decodes by evaluation, a row with one by what its operand's field keeps. -/
theorem decodeEncodeRoundTrip : Obligations.DecodeEncodeRoundTrip := by
  intro i hi
  cases i with
  | char c => exact decode_command_of_eq ((decodeCommand_char _ c).2 rfl)
  | crcByte b => exact decode_command_of_eq ((decodeCommand_crcByte _ b).2 rfl)
  | illegal w => exact decode_command_of_eq ((decodeCommand_illegal w w).2 ⟨rfl, hi⟩)
  | recIgnored t => exact congrArg Except.ok (recordInstr_of_wellFormed hi)
  | wrIgnored o w =>
    exact Bus.decodeAccess_writeAccess (Bus.writeRow_of_mem_readOnlyOffsets (List.contains_iff_mem.1 hi) w)
  | _ => rfl

-- From a word to its instruction and back.

/-- Each command without an operand has one word, and every other keeps its operand. -/
theorem encode_decodeCommand (w : Word) : encode (commandInstr (decodeCommand w)) = .command w := by
  cases h : decodeCommand w with
  | char c => rw [(decodeCommand_char w c).1 h]; rfl
  | crcByte b => rw [(decodeCommand_crcByte w b).1 h]; rfl
  | illegal v => rw [((decodeCommand_illegal w v).1 h).1]; rfl
  | nop | reset | start | eoi | crcInit =>
    unfold decodeCommand at h
    split_ifs at h
    subst w
    rfl

theorem encode_recordInstr (t : Byte) : encode (recordInstr t) = .recordType t := by
  rcases recordInstr_cases t with ⟨rfl, e⟩ | ⟨rfl, e⟩ | ⟨rfl, e⟩ | ⟨-, e⟩ <;> rw [e] <;> rfl

/-- Settles O2: the words and the type codes, format by format. -/
theorem commandAndTypeWordsKeepEveryBit : Obligations.CommandAndTypeWordsKeepEveryBit :=
  ⟨encode_decodeCommand, encode_recordInstr⟩

/-- Settles O5: each word is the encoding of its row, so the round trip gives the row back. -/
theorem sampleWordsDecode : Obligations.SampleWordsDecode :=
  ⟨decodeEncodeRoundTrip .nop rfl, decodeEncodeRoundTrip .reset rfl, decodeEncodeRoundTrip .start rfl,
    decodeEncodeRoundTrip (.char 0x3A#8) rfl, decodeEncodeRoundTrip .eoi rfl, decodeEncodeRoundTrip .crcInit rfl,
    decodeEncodeRoundTrip (.crcByte 0x31#8) rfl, decodeEncodeRoundTrip (.illegal 0x04FF0000#32) rfl,
    decodeEncodeRoundTrip .recData rfl, decodeEncodeRoundTrip .recEof rfl, decodeEncodeRoundTrip .recEla rfl,
    decodeEncodeRoundTrip (.recIgnored 0x02#8) rfl⟩

-- The illegal command words.

/-- R93's condition as a proposition. -/
theorem isIllegalWord_iff (w : Word) :
    isIllegalWord w = true ↔ 7 ≤ (w.extractLsb' 24 8).toNat ∨ w.extractLsb' 8 16 ≠ 0#16
      ∨ (w.extractLsb' 0 8 ≠ 0#8 ∧ w.extractLsb' 24 8 ≠ 0x03#8 ∧ w.extractLsb' 24 8 ≠ 0x06#8) := by
  simp only [isIllegalWord, Bool.or_eq_true, Bool.and_eq_true, bne_iff_ne, decide_eq_true_eq, or_assoc, and_assoc]

/-- Settles O3: a word decodes to ILLEGAL by R93's condition, and a write to CMD runs the row it decodes to. -/
theorem illegalCommandWordsAreCommandErrors : Obligations.IllegalCommandWordsAreCommandErrors := by
  intro w s
  refine ⟨?_, fun h => ?_, rfl⟩
  · rw [decodeCommand_illegal, isIllegalWord_iff, eq_self, true_and]
  · rw [exec_wrCmd, h]
    rfl

-- The hex digits.

theorem isHex_iff (c : Byte) :
    isHex c = true ↔ (0x30 ≤ c.toNat ∧ c.toNat ≤ 0x39) ∨ (0x41 ≤ c.toNat ∧ c.toNat ≤ 0x46)
      ∨ (0x61 ≤ c.toNat ∧ c.toNat ≤ 0x66) := by
  simp only [isHex, Bool.or_eq_true, Bool.and_eq_true, decide_eq_true_eq, BitVec.le_def, BitVec.toNat_ofNat,
    Nat.reducePow, Nat.reduceMod, or_assoc]

/-- The value of a digit of each of the three ranges. -/
theorem hexVal_toNat (c : Byte) :
    (0x30 ≤ c.toNat → c.toNat ≤ 0x39 → (hexVal c).toNat = c.toNat - 0x30)
      ∧ (0x41 ≤ c.toNat → c.toNat ≤ 0x46 → (hexVal c).toNat = c.toNat - 0x41 + 10)
      ∧ (0x61 ≤ c.toNat → c.toNat ≤ 0x66 → (hexVal c).toNat = c.toNat - 0x61 + 10) := by
  unfold hexVal
  simp only [BitVec.le_def]
  split_ifs with h9 hF <;>
    simp only [BitVec.toNat_setWidth, BitVec.toNat_add, BitVec.toNat_sub, BitVec.toNat_ofNat] at * <;> omega

/-- Settles O6: which bytes are digits, and the value range by range. -/
theorem hexDigitValues : Obligations.HexDigitValues := fun c => ⟨isHex_iff c, hexVal_toNat c⟩

end Sys2Proof.Proofs.Encoding
end

section
/-! PROOFS. A whole record line (30_encoding R96, R97; 40_record R127 to R129): what each digit of the header and each
pair of payload digits leaves, and what they leave together. -/

namespace Sys2Proof.Proofs.Record

open Sys2Proof.Machine

-- CHAR on a hex digit of a run.

theorem exec_char_hexDigit {c : Byte} {s : State} (hr : s.runState = .running) (hx : isHex c = true) :
    exec (.char c) s = parseChar c s := by
  obtain ⟨hcr, hlf⟩ := Answers.isHex_ne_lineEnd hx
  simp [exec, execChar, hr, hcr, hlf]

theorem feedChars_cons {c : Byte} {s t : State} (h : exec (.char c) s = .next t) (cs : List Byte) :
    feedChars (c :: cs) s = feedChars cs t := by
  simp [feedChars, h]

-- The fields a sequence of digits makes, the earlier digit the more significant.

theorem toNat_append_digit {n : Nat} (x : BitVec n) (d : BitVec 4) : (x ++ d).toNat = x.toNat * 16 + d.toNat := by
  rw [BitVec.toNat_append, ← Nat.shiftLeft_add_eq_or_of_lt d.isLt, Nat.shiftLeft_eq]

theorem pushDigit8_toNat (v : Byte) (d : BitVec 4) : (pushDigit8 v d).toNat = (v.toNat * 16 + d.toNat) % 256 := by
  rw [pushDigit8, toNat_append_digit, BitVec.extractLsb'_toNat, Nat.shiftRight_zero]
  omega

theorem pushDigit16_toNat (v : Half) (d : BitVec 4) :
    (pushDigit16 v d).toNat = (v.toNat * 16 + d.toNat) % 65536 := by
  rw [pushDigit16, toNat_append_digit, BitVec.extractLsb'_toNat, Nat.shiftRight_zero]
  omega

/-- Two digits make an 8-bit field, whatever it held. -/
theorem pushDigit8_two (v : Byte) (a b : BitVec 4) : pushDigit8 (pushDigit8 v a) b = a ++ b := by
  apply BitVec.eq_of_toNat_eq
  simp only [pushDigit8_toNat, toNat_append_digit]
  omega

/-- Four digits make the 16-bit offset, whatever it held. -/
theorem pushDigit16_four (v : Half) (a b c d : BitVec 4) :
    pushDigit16 (pushDigit16 (pushDigit16 (pushDigit16 v a) b) c) d = a ++ b ++ c ++ d := by
  apply BitVec.eq_of_toNat_eq
  simp only [pushDigit16_toNat, toNat_append_digit]
  omega

-- The header.

/-- The state `s` with `i` header digits read into the three fields. -/
def inHeader (s : State) (i : Nat) (bc : Byte) (off : Half) (rtype : Byte) : State :=
  { s with ph := .hdr, pos := BitVec.ofNat 10 i, bc := bc, off := off, rtype := rtype }

/-- The state `s` with the three fields a whole header has filled. -/
def withFields (s : State) (bc : Byte) (off : Half) (rtype : Byte) : State :=
  { s with bc := bc, off := off, rtype := rtype }

/-- The state `s` with `d` payload digits read, PBUF then being `m`: with two for each byte the record is complete. -/
def inPayload (s : State) (d : Nat) (m : Memory) : State :=
  { s with ph := if d = 2 * s.bc.toNat then .trl else .pay, pos := BitVec.ofNat 10 (8 + d), pbuf := m }

theorem exec_marker {s : State} (hr : s.runState = .running) (hp : s.ph = .ls) :
    exec (.char 0x3A#8) s = .next (inHeader s 0 0x00#8 0x0000#16 0x00#8) := by
  simp [exec, execChar, parseChar, parseLineStart, inHeader, hr, hp]

section
variable {s : State} {c : Byte} {i : Nat} {bc rtype : Byte} {off : Half}

theorem exec_headerDigit (hr : s.runState = .running) (hx : isHex c = true) (hi : i ≤ 7) :
    exec (.char c) (inHeader s i bc off rtype) = .next
      { pushHeaderDigit i (hexVal c) (inHeader s i bc off rtype) with
        pos := BitVec.ofNat 10 (i + 1)
        ph := if i = 7 then (if bc = 0x00#8 then .trl else .pay) else .hdr } := by
  have hpos : (inHeader s i bc off rtype).pos.toNat = i := by rw [inHeader, BitVec.toNat_ofNat]; omega
  have hparse : parseChar c (inHeader s i bc off rtype) = .next (parseHeader c (inHeader s i bc off rtype)) := rfl
  rw [exec_char_hexDigit (s := inHeader s i bc off rtype) hr hx, hparse, parseHeader, if_pos hx, headerPhase, hpos,
    BitVec.ofNat_add]
  rfl

/-- Digits 0 and 1 go to the byte count. -/
theorem exec_byteCountDigit (hr : s.runState = .running) (hx : isHex c = true) (hi : i ≤ 1) :
    exec (.char c) (inHeader s i bc off rtype) = .next (inHeader s (i + 1) (pushDigit8 bc (hexVal c)) off rtype) := by
  rw [exec_headerDigit hr hx (by omega), pushHeaderDigit, if_pos hi, if_neg (by omega)]
  rfl

/-- Digits 2 to 5 go to the offset. -/
theorem exec_offsetDigit (hr : s.runState = .running) (hx : isHex c = true) (h2 : 2 ≤ i) (h5 : i ≤ 5) :
    exec (.char c) (inHeader s i bc off rtype) =
      .next (inHeader s (i + 1) bc (pushDigit16 off (hexVal c)) rtype) := by
  rw [exec_headerDigit hr hx (by omega), pushHeaderDigit, if_neg (by omega), if_pos h5, if_neg (by omega)]
  rfl

/-- Digit 6 goes to the type. -/
theorem exec_typeDigit (hr : s.runState = .running) (hx : isHex c = true) :
    exec (.char c) (inHeader s 6 bc off rtype) = .next (inHeader s 7 bc off (pushDigit8 rtype (hexVal c))) := by
  rw [exec_headerDigit hr hx (by omega)]
  rfl

/-- Digit 7 goes to the type and ends the header: the payload begins, or with no payload the record is complete. -/
theorem exec_lastHeaderDigit (hr : s.runState = .running) (hx : isHex c = true) :
    exec (.char c) (inHeader s 7 bc off rtype) =
      .next (inPayload (withFields s bc off (pushDigit8 rtype (hexVal c))) 0 s.pbuf) := by
  have hbc : bc = 0x00#8 ↔ 0 = 2 * bc.toNat := by rw [← BitVec.toNat_inj, BitVec.toNat_ofNat]; omega
  rw [exec_headerDigit hr hx le_rfl]
  simp only [hbc]
  rfl

end

/-- The marker and eight digits leave the three fields assembled and no payload byte read. -/
theorem feedChars_header {s : State} (hr : s.runState = .running) (hp : s.ph = .ls) {h0 h1 h2 h3 h4 h5 h6 h7 : Byte}
    (hx : ∀ c ∈ [h0, h1, h2, h3, h4, h5, h6, h7], isHex c = true) (p : List Byte) :
    feedChars ([0x3A#8, h0, h1, h2, h3, h4, h5, h6, h7] ++ p) s =
      feedChars p (inPayload (withFields s (hexVal h0 ++ hexVal h1)
        (hexVal h2 ++ hexVal h3 ++ hexVal h4 ++ hexVal h5) (hexVal h6 ++ hexVal h7)) 0 s.pbuf) := by
  simp only [List.forall_mem_cons] at hx
  obtain ⟨x0, x1, x2, x3, x4, x5, x6, x7, -⟩ := hx
  simp only [List.cons_append, List.nil_append]
  rw [feedChars_cons (exec_marker hr hp), feedChars_cons (exec_byteCountDigit hr x0 (by decide)),
    feedChars_cons (exec_byteCountDigit hr x1 (by decide)),
    feedChars_cons (exec_offsetDigit hr x2 (by decide) (by decide)),
    feedChars_cons (exec_offsetDigit hr x3 (by decide) (by decide)),
    feedChars_cons (exec_offsetDigit hr x4 (by decide) (by decide)),
    feedChars_cons (exec_offsetDigit hr x5 (by decide) (by decide)), feedChars_cons (exec_typeDigit hr x6),
    feedChars_cons (exec_lastHeaderDigit hr x7), pushDigit8_two, pushDigit8_two, pushDigit16_four]

-- The payload.

/-- PBUF after the two digits of payload byte `k`. -/
def pushPayloadByte (k : Nat) (a b : Byte) (m : Memory) : Memory :=
  (m.write k (hexVal a ++ 0x0#4)).write k (hexVal a ++ hexVal b)

/-- PBUF after the digits of payload bytes `k`, `k + 1` and so on. -/
def pushPayload : Nat → List Byte → Memory → Memory
  | _, [], m => m
  | _, [_], m => m
  | k, a :: b :: p, m => pushPayload (k + 1) p (pushPayloadByte k a b m)

theorem pushPayloadByte_wf {m : Memory} (h : m.wf) (k : Nat) (a b : Byte) : (pushPayloadByte k a b m).wf :=
  Memory.write_wf (Memory.write_wf h _ _) _ _

theorem read_pushPayloadByte {m : Memory} (h : m.wf) (k j : Nat) (a b : Byte) :
    (pushPayloadByte k a b m).read j = if j = k then hexVal a ++ hexVal b else m.read j := by
  rw [pushPayloadByte, Memory.read_write (Memory.write_wf h _ _), Memory.read_write h]
  split_ifs <;> rfl

/-- The payload's bytes before `k` and past its digits stay. -/
theorem read_pushPayload_outside {m : Memory} (h : m.wf) {k j : Nat} {p : List Byte}
    (hj : j < k ∨ 2 * k + p.length ≤ 2 * j) : (pushPayload k p m).read j = m.read j := by
  induction k, p, m using pushPayload.induct with
  | case1 | case2 => rfl
  | case3 k a b p m ih =>
    simp only [List.length_cons] at hj
    rw [pushPayload, ih (pushPayloadByte_wf h k a b) (by omega), read_pushPayloadByte h, if_neg (by omega)]

/-- Byte `j` from `k` on is made of the digits `2 * j` and `2 * j + 1`. -/
theorem read_pushPayload_inside {m : Memory} (h : m.wf) {k j : Nat} {p : List Byte} (hj : 2 * j + 1 < p.length) :
    (pushPayload k p m).read (k + j) = hexVal (p.getD (2 * j) 0#8) ++ hexVal (p.getD (2 * j + 1) 0#8) := by
  induction k, p, m using pushPayload.induct generalizing j with
  | case1 | case2 => simp at hj
  | case3 k a b p m ih =>
    have hwf := pushPayloadByte_wf h k a b
    rw [pushPayload]
    cases j with
    | zero => rw [read_pushPayload_outside hwf (by omega), read_pushPayloadByte h, if_pos (by omega)]; rfl
    | succ j =>
      simp only [List.length_cons] at hj
      rw [show k + (j + 1) = k + 1 + j by omega, ih hwf (by omega)]
      rfl

theorem payloadDigit_ofNat (d : Nat) : payloadDigit (BitVec.ofNat 10 (8 + d)) = BitVec.ofNat 10 d := by
  rw [payloadDigit, BitVec.ofNat_add, BitVec.add_comm, BitVec.add_sub_cancel]

theorem payloadIndex_ofNat {d : Nat} (hd : d < 1024) : payloadIndex (BitVec.ofNat 10 (8 + d)) = d / 2 := by
  rw [payloadIndex, payloadDigit_ofNat, BitVec.toNat_ushiftRight, BitVec.toNat_ofNat, Nat.shiftRight_eq_div_pow]
  omega

theorem payloadByte_even (k : Nat) (old : Byte) (d : BitVec 4) :
    payloadByte (BitVec.ofNat 10 (8 + 2 * k)) old d = d ++ 0x0#4 := by
  rw [payloadByte, payloadDigit_ofNat, BitVec.getLsbD_ofNat]
  simp

theorem payloadByte_odd (k : Nat) (old : Byte) (d : BitVec 4) :
    payloadByte (BitVec.ofNat 10 (8 + (2 * k + 1))) old d = old.extractLsb' 4 4 ++ d := by
  rw [payloadByte, payloadDigit_ofNat, BitVec.getLsbD_ofNat]
  simp [Nat.testBit_zero]

theorem payloadPhase_inPayload {s : State} {d : Nat} {m : Memory} (hd : d < 1016) (hp : (inPayload s d m).ph = .pay) :
    payloadPhase (inPayload s d m) = if d + 1 = 2 * s.bc.toNat then .trl else .pay := by
  have hpos : (inPayload s d m).pos.toNat = 8 + d := by rw [inPayload, BitVec.toNat_ofNat]; omega
  rw [payloadPhase, hpos, hp, Nat.add_assoc]
  exact if_congr Nat.add_left_cancel_iff rfl rfl

section
variable {s : State} (hr : s.runState = .running)
include hr

/-- Payload digit `d` goes to byte `d / 2`, which PBUF has: the byte count is at most 255. -/
theorem exec_payloadDigit {c : Byte} (hx : isHex c = true) {d : Nat} (hd : d < 2 * s.bc.toNat) (m : Memory) :
    exec (.char c) (inPayload s d m) = .next (inPayload s (d + 1)
      (m.write (d / 2) (payloadByte (BitVec.ofNat 10 (8 + d)) (m.read (d / 2)) (hexVal c)))) := by
  have hbc := s.bc.isLt
  have hd' : d < 1016 := by omega
  have hph : (inPayload s d m).ph = .pay := if_neg (by omega)
  have hj : payloadIndex (inPayload s d m).pos = d / 2 := payloadIndex_ofNat (by omega)
  have hcap : d / 2 < Config.payloadCapacity := by rw [Config.payloadCapacity]; omega
  have hsucc : BitVec.ofNat 10 (8 + (d + 1)) = BitVec.ofNat 10 (8 + d) + 1#10 := BitVec.ofNat_add (8 + d) 1
  rw [exec_char_hexDigit (s := inPayload s d m) hr hx, parseChar, hph]
  simp only [parsePayload, hx, if_true, hj, if_pos hcap, payloadPhase_inPayload hd' hph]
  simp only [inPayload, hsucc]

/-- Two digits make payload byte `k`. -/
theorem feedChars_payloadByte {a b : Byte} (ha : isHex a = true) (hb : isHex b = true) {k : Nat}
    (hk : k < s.bc.toNat) {m : Memory} (hm : m.wf) (p : List Byte) :
    feedChars (a :: b :: p) (inPayload s (2 * k) m) =
      feedChars p (inPayload s (2 * (k + 1)) (pushPayloadByte k a b m)) := by
  have heven : 2 * k / 2 = k := by omega
  have hodd : (2 * k + 1) / 2 = k := by omega
  rw [feedChars_cons (exec_payloadDigit hr ha (by omega) m), feedChars_cons (exec_payloadDigit hr hb (by omega) _),
    payloadByte_even, payloadByte_odd, heven, hodd, Memory.read_write hm, if_pos rfl,
    BitVec.extractLsb'_append_eq_left]
  rfl

/-- The digits of the payload bytes still to come, fed in order, complete the record. -/
theorem feedChars_payload {k : Nat} {p : List Byte} {m : Memory} (hm : m.wf) (hx : ∀ c ∈ p, isHex c = true)
    (hlen : 2 * k + p.length = 2 * s.bc.toNat) :
    feedChars p (inPayload s (2 * k) m) = .next (inPayload s (2 * s.bc.toNat) (pushPayload k p m)) := by
  induction k, p, m using pushPayload.induct with
  | case1 k m => rw [← hlen]; rfl
  | case2 k c m => simp only [List.length_singleton] at hlen; omega
  | case3 k a b p m ih =>
    simp only [List.forall_mem_cons] at hx
    obtain ⟨ha, hb, hp⟩ := hx
    simp only [List.length_cons] at hlen
    rw [feedChars_payloadByte hr ha hb (by omega) hm]
    exact ih (pushPayloadByte_wf hm k a b) hp (by omega)

end

/-- Settles O38: the header gives the byte count, so the payload's digits are those of its bytes. -/
theorem wholeRecordIsParsed : Obligations.WholeRecordIsParsed := by
  intro s h0 h1 h2 h3 h4 h5 h6 h7 p hr hp hwf hx hlen
  rw [List.forall_mem_append] at hx
  obtain ⟨hxh, hxp⟩ := hx
  have hbc : 2 * 0 + p.length = 2 * (hexVal h0 ++ hexVal h1).toNat := by rw [toNat_append_digit, hlen, Nat.zero_add]
  have hrun (bc : Byte) (off : Half) (rtype : Byte) : (withFields s bc off rtype).runState = .running := hr
  refine ⟨_, (feedChars_header hr hp hxh p).trans (feedChars_payload (hrun _ _ _) (k := 0) hwf hxp hbc), ?_,
    fun j hj => ?_, fun j hj => ?_⟩
  · simp only [inPayload, withFields, ← hbc, Nat.zero_add, if_true, Nat.mul_zero]
  · have hread := read_pushPayload_inside hwf (k := 0) (j := j) (p := p) (by omega)
    rwa [Nat.zero_add] at hread
  · exact read_pushPayload_outside hwf (by omega)

end Sys2Proof.Proofs.Record
end

section
/-! PROOFS. CHAR, one character at a time (40_record R121 to R130): outside a run, by phase in a run, and the end of a
line that holds no complete record. -/

namespace Sys2Proof.Proofs.Characters

open Sys2Proof.Machine

-- CHAR by the run state and the character.

theorem exec_char_idle {c : Byte} {s : State} (h : s.runState = .idle) : exec (.char c) s = .next (cmdError s) := by
  simp [exec, execChar, h]

theorem exec_char_ended {c : Byte} {s : State} (h : s.runState = .done ∨ s.runState = .failed) :
    exec (.char c) s = .next s := by
  rcases h with h | h <;> simp [exec, execChar, h]

theorem exec_char_cr {s : State} (hr : s.runState = .running) : exec (.char 0x0D#8) s = .next s := by
  simp [exec, execChar, hr]

theorem exec_char_lf {s : State} (hr : s.runState = .running) : exec (.char 0x0A#8) s = .next (endOfLine s) := by
  simp [exec, execChar, hr]

theorem exec_char_parse {c : Byte} {s : State} (hr : s.runState = .running) (hcr : c ≠ 0x0D#8) (hlf : c ≠ 0x0A#8) :
    exec (.char c) s = parseChar c s := by
  simp [exec, execChar, hr, hcr, hlf]

/-- Settles O30: each of the three states that are no run has its equation. -/
theorem charOutsideARun : Obligations.CharOutsideARun :=
  fun _ _ => ⟨exec_char_idle, exec_char_ended⟩

-- parse_char by phase.

theorem parseChar_ignored {c : Byte} {s : State} (hp : s.ph = .skip ∨ s.ph = .trl ∨ s.ph = .bad) :
    parseChar c s = .next s := by
  rcases hp with hp | hp | hp <;> simp [parseChar, hp]

theorem parseChar_lineStart {c : Byte} {s : State} (hp : s.ph = .ls) : parseChar c s = .next (parseLineStart c s) := by
  simp [parseChar, hp]

/-- A character that is no digit spoils a line in its header or its payload. -/
theorem parseChar_badDigit {c : Byte} {s : State} (hp : s.ph = .hdr ∨ s.ph = .pay) (hx : isHex c = false) :
    parseChar c s = .next { s with ph := .bad } := by
  rcases hp with hp | hp <;> simp [parseChar, parseHeader, parsePayload, hp, hx]

/-- Settles O31: CR never reaches parse_char, and any other character meets a phase that ignores it. -/
theorem charIgnoredInARun : Obligations.CharIgnoredInARun := by
  intro c s hr
  refine ⟨exec_char_cr hr, fun hlf hp => ?_⟩
  by_cases hcr : c = 0x0D#8
  · rw [hcr, exec_char_cr hr]
  · rw [exec_char_parse hr hcr hlf, parseChar_ignored hp]

/-- Settles O32: the marker alone opens a header. -/
theorem charStartsALine : Obligations.CharStartsALine := by
  intro c s hr hp hcr hlf
  rw [exec_char_parse hr hcr hlf, parseChar_lineStart hp, parseLineStart]
  exact ⟨fun h => by rw [if_pos h], fun h => by rw [if_neg h]⟩

-- The header.

/-- A header digit goes to the field of its position, as its least significant digit, and to no other. -/
theorem pushHeaderDigit_toNat (p : Nat) (d : BitVec 4) (s : State) :
    (pushHeaderDigit p d s).bc.toNat = (if p ≤ 1 then (s.bc.toNat * 16 + d.toNat) % 256 else s.bc.toNat)
      ∧ (pushHeaderDigit p d s).off.toNat
        = (if 2 ≤ p ∧ p ≤ 5 then (s.off.toNat * 16 + d.toNat) % 65536 else s.off.toNat)
      ∧ (pushHeaderDigit p d s).rtype.toNat
        = (if 6 ≤ p then (s.rtype.toNat * 16 + d.toNat) % 256 else s.rtype.toNat) := by
  rcases pushHeaderDigit_cases p d s with ⟨h1, e⟩ | ⟨h2, h5, e⟩ | ⟨h6, e⟩ <;> rw [e]
  · rw [if_pos h1, if_neg (by omega), if_neg (by omega)]
    exact ⟨Record.pushDigit8_toNat _ _, rfl, rfl⟩
  · rw [if_neg (by omega), if_pos ⟨h2, h5⟩, if_neg (by omega)]
    exact ⟨rfl, Record.pushDigit16_toNat _ _, rfl⟩
  · rw [if_neg (by omega), if_neg (by omega), if_pos h6]
    exact ⟨rfl, rfl, Record.pushDigit8_toNat _ _⟩

theorem pushHeaderDigit_frame (p : Nat) (d : BitVec 4) (s : State) :
    pushHeaderDigit p d s = { s with
      bc := (pushHeaderDigit p d s).bc, off := (pushHeaderDigit p d s).off
      rtype := (pushHeaderDigit p d s).rtype } := by
  rcases pushHeaderDigit_cases p d s with ⟨-, e⟩ | ⟨-, -, e⟩ | ⟨-, e⟩ <;> rw [e]

theorem parseChar_headerDigit {c : Byte} {s : State} (hp : s.ph = .hdr) (hx : isHex c = true) :
    parseChar c s = .next { pushHeaderDigit s.pos.toNat (hexVal c) s with
      pos := s.pos + 1#10
      ph := if s.pos.toNat = 7 then (if s.bc = 0x00#8 then .trl else .pay) else .hdr } := by
  simp [parseChar, parseHeader, headerPhase, hp, hx]

/-- Settles O33: a digit goes to the field of its position; POS counts, and the eighth digit ends the header. -/
theorem charReadsHeaderDigits : Obligations.CharReadsHeaderDigits := by
  intro c s hr hp hpos hcr hlf
  rw [exec_char_parse hr hcr hlf]
  refine ⟨parseChar_badDigit (.inl hp), fun hx => ⟨_, parseChar_headerDigit hp hx, ?_⟩⟩
  obtain ⟨hbc, hoff, hrtype⟩ := pushHeaderDigit_toNat s.pos.toNat (hexVal c) s
  refine ⟨?_, Invariants.toNat_succ_pos (by omega), hbc, hoff, hrtype, rfl⟩
  rw [pushHeaderDigit_frame]

-- The payload.

/-- A state reading its payload, with the digits read counted from 0. -/
theorem inPayload_self {s : State} (hp : s.ph = .pay) (h8 : 8 ≤ s.pos.toNat) (hlt : s.pos.toNat < 8 + 2 * s.bc.toNat) :
    Record.inPayload s (s.pos.toNat - 8) s.pbuf = s := by
  have hpos : BitVec.ofNat 10 (8 + (s.pos.toNat - 8)) = s.pos := by
    rw [Nat.add_sub_cancel' h8, BitVec.ofNat_toNat, BitVec.setWidth_eq]
  rw [Record.inPayload, if_neg (by omega), hpos, ← hp]

/-- The byte payload digit `d` makes: the high digit, over a low one of zero, or the low digit under the high one held. -/
theorem payloadByte_ofNat (d : Nat) (old : Byte) (v : BitVec 4) :
    payloadByte (BitVec.ofNat 10 (8 + d)) old v = if d % 2 = 0 then v ++ 0x0#4 else old.extractLsb' 4 4 ++ v := by
  rcases Nat.even_or_odd' d with ⟨k, rfl | rfl⟩
  · rw [Record.payloadByte_even, if_pos (by omega)]
  · rw [Record.payloadByte_odd, if_neg (by omega)]

/-- Settles O34: the digit is number POS - 8, and PBUF is written at half of that alone. -/
theorem charReadsPayloadDigits : Obligations.CharReadsPayloadDigits := by
  intro c s hr hp h8 hlt hwf hcr hlf
  refine ⟨fun hx => by rw [exec_char_parse hr hcr hlf, parseChar_badDigit (.inr hp) hx], fun hx => ?_⟩
  have hexec := Record.exec_payloadDigit hr hx (d := s.pos.toNat - 8) (by omega) s.pbuf
  rw [inPayload_self hp h8 hlt] at hexec
  have hbc := s.bc.isLt
  refine ⟨_, hexec, rfl, ?_, if_congr (by omega) rfl rfl, fun j => ?_⟩
  · show (BitVec.ofNat 10 _).toNat = _
    rw [BitVec.toNat_ofNat]
    omega
  · refine (Memory.read_write hwf _ _ _).trans (if_ctx_congr Iff.rfl (fun hj => ?_) fun _ => rfl)
    rw [payloadByte_ofNat, hj]

-- The end of a line with no complete record.

/-- Settles O35: each of the five phases has its report, on a line already counted. -/
theorem lineEndsWithoutARecord : Obligations.LineEndsWithoutARecord := by
  intro s hr
  rw [exec_char_lf hr]
  rcases endOfLine_cases s with ⟨hp | hp, e⟩ | ⟨hp | hp, e⟩ | ⟨hp, e⟩ | ⟨hp, e⟩ <;> rw [e, hp]
  · exact ⟨fun _ => rfl, nofun, nofun⟩
  · exact ⟨fun _ => rfl, nofun, nofun⟩
  · exact ⟨nofun, fun _ => rfl, nofun⟩
  · exact ⟨nofun, fun _ => rfl, nofun⟩
  · exact ⟨nofun, nofun, fun _ => rfl⟩
  · exact ⟨nofun, nofun, nofun⟩

-- What a CHAR can write.

/-- Settles O37: CHAR but for LF is a command error in IDLE, nothing, or parse_char. -/
theorem charWritesOnlyTheParser : Obligations.CharWritesOnlyTheParser := by
  intro c s t hlf h
  replace h : execChar c s = .next t := h
  rcases execChar_cases c s with ⟨hr, e⟩ | ⟨-, e⟩ | ⟨-, -, e⟩ | ⟨-, hc, -⟩ | ⟨-, -, -, e⟩
  case inr.inr.inr.inl => exact absurd hc hlf
  all_goals rw [e] at h
  · cases h; exact ⟨rfl, fun hn => absurd hr hn⟩
  · cases h; exact ⟨rfl, fun _ => rfl⟩
  · cases h; exact ⟨rfl, fun _ => rfl⟩
  · have hframe := parseChar_frame h
    exact ⟨by rw [hframe], fun _ => (congrArg State.cmdErr hframe :)⟩

end Sys2Proof.Proofs.Characters
end

section
/-! PROOFS. The memory assembler: what a complete record does when its line ends, by its type (41_memory R151 to R157). -/

namespace Sys2Proof.Proofs.Assembler

open Sys2Proof.Machine Sys2Proof.Claims

-- The four rows.

theorem exec_recData (s : State) : exec .recData s = .next (commitData s) := rfl
theorem exec_recEof (s : State) : exec .recEof s = .next (commitEof s) := rfl
theorem exec_recEla (s : State) : exec .recEla s = .next (commitEla s) := rfl
theorem exec_recIgnored (t : Byte) (s : State) : exec (.recIgnored t) s = .next (commitIgnored t s) := rfl

-- The end of a complete record's line.

theorem endOfLine_of_trl {s : State} (hp : s.ph = .trl) :
    endOfLine s = { commit { s with lineCount := s.lineCount + 1#32 } with ph := .ls, pos := 0#10 } := by
  simpa [hp] using endOfLine_cases s

/-- Settles O36: LF is the line end, which in TRL is commit, and commit is the meaning of the record's row. -/
theorem lineEndCommitsTheRecord : Obligations.LineEndCommitsTheRecord := by
  intro s hr hp
  refine ⟨_, exec_recordInstr _ _ rfl, ?_⟩
  rw [Characters.exec_char_lf hr, endOfLine_of_trl hp]

-- A Data record.

/-- A payload byte hits exactly where its address, taken as a number, is in the window. -/
theorem payloadHits_iff_windowHolds (s : State) (i : Nat) :
    payloadHits s i = true ↔ windowHolds s (byteAddress s i) :=
  payloadHits_iff s i

theorem windowIndex_payloadAddr (s : State) (i : Nat) :
    windowIndex s (payloadAddr s i) = byteAddress s i - s.actStart.toNat := by
  rw [windowIndex, payloadAddr_toNat, byteAddress]

theorem commitData_anyHit_iff (s : State) :
    (commitData s).anyHit = true ↔ s.anyHit = true ∨ ∃ i, i < s.bc.toNat ∧ windowHolds s (byteAddress s i) := by
  show (s.anyHit || (List.range s.bc.toNat).any (payloadHits s)) = true ↔ _
  simp only [Bool.or_eq_true, List.any_eq_true, List.mem_range, payloadHits_iff_windowHolds]

/-- Settles O39: the at most 255 payload bytes have distinct addresses, so each in-window one is still at its index when
all are placed. -/
theorem dataRecordPlacesItsBytes : Obligations.DataRecordPlacesItsBytes := by
  intro s hwf
  have hbc := s.bc.isLt
  obtain ⟨-, hin, hout, -⟩ := foldl_placePayloadByte s s.wbuf hwf s.bc.toNat (by omega)
  simp only [payloadHits_iff_windowHolds, windowIndex_payloadAddr] at hin hout
  exact ⟨commitData s, exec_recData s, rfl, commitData_anyHit_iff s, hin, hout⟩

-- An Extended-High-Address record.

/-- The two payload bytes are the high half of the base, the first one on top. -/
theorem elaBase_toNat (s : State) :
    (elaBase s).toNat = ((s.pbuf.read 0).toNat * 256 + (s.pbuf.read 1).toNat) * 65536 := by
  have h1 := (s.pbuf.read 1).isLt
  rw [elaBase, BitVec.toNat_append, BitVec.toNat_append, ← Nat.shiftLeft_add_eq_or_of_lt h1]
  simp [Nat.shiftLeft_eq]

/-- Settles O41: the row splits on the byte count alone; the error reports the type the record has. -/
theorem elaRecordLoadsTheHighBase : Obligations.ElaRecordLoadsTheHighBase := by
  intro s ht
  rw [exec_recEla]
  rcases commitEla_cases s with ⟨hshort, e⟩ | ⟨hlong, e⟩ <;> rw [e]
  · exact ⟨fun h => by omega, fun _ => by rw [← ht]; rfl⟩
  · exact ⟨fun _ => ⟨_, rfl, rfl, elaBase_toNat s⟩, fun h => by omega⟩

-- A Terminator, and every other type.

/-- finish is the claims' own account of it, with a hit and without. -/
theorem finish_eq_finished (s : State) : finish s = finished s := by
  rcases finish_cases s with ⟨h, e⟩ | ⟨h, e⟩
  · rw [e, finished, if_pos h]; rfl
  · rw [e, finished, if_neg (Bool.eq_false_iff.1 h)]; rfl

/-- Settles O40: the Terminator's row is its report, TERM_SEEN and a finish. -/
theorem terminatorEndsTheRun : Obligations.TerminatorEndsTheRun := by
  intro s
  rw [exec_recEof, commitEof, finish_eq_finished, setLine]

/-- Settles O42: the row is its report and nothing more. -/
theorem ignoredRecordOnlyReports : Obligations.IgnoredRecordOnlyReports := by
  intro s t
  rw [exec_recIgnored, commitIgnored, setLine]

end Sys2Proof.Proofs.Assembler
end

section
/-! PROOFS. The CRC engine (42_window R180 to R185): crc_update as eight shifts, its table form by the linearity of a
shift, and the two commands that write the engine alone. -/

namespace Sys2Proof.Proofs.Crc

open Sys2Proof.Machine

/-- Settles O44: the meaning of each command is one update of CRC_STATE. -/
theorem crcCommandsWriteOnlyTheEngine : Obligations.CrcCommandsWriteOnlyTheEngine :=
  fun _ _ => ⟨rfl, rfl⟩

theorem crcShifts_eq_iterate (n : Nat) (r : Word) : crcShifts n r = crcShift^[n] r := by
  induction n generalizing r with
  | zero => rfl
  | succ n ih => exact ih (crcShift r)

/-- Settles O45: R180's shift is the model's, and n shifts are its n-fold application. -/
theorem crcUpdateIsEightShifts : Obligations.CrcUpdateIsEightShifts :=
  fun r b => crcShifts_eq_iterate 8 (r ^^^ b.setWidth 32)

-- The table form.

theorem crcShift_of_low_clear {r : Word} (h : r.getLsbD 0 = false) : crcShift r = r >>> 1 :=
  if_neg (Bool.eq_false_iff.1 h)

theorem crcShift_of_low_set {r : Word} (h : r.getLsbD 0 = true) : crcShift r = (r >>> 1) ^^^ Config.crcPolynomial :=
  if_pos h

/-- A shift is linear: the polynomial comes in where exactly one of the two low bits is set. -/
theorem crcShift_xor (x y : Word) : crcShift (x ^^^ y) = crcShift x ^^^ crcShift y := by
  have hlow : (x ^^^ y).getLsbD 0 = (x.getLsbD 0 ^^ y.getLsbD 0) := BitVec.getLsbD_xor
  cases hx : x.getLsbD 0 <;> cases hy : y.getLsbD 0 <;> rw [hx, hy] at hlow
  · rw [crcShift_of_low_clear hx, crcShift_of_low_clear hy, crcShift_of_low_clear hlow,
      BitVec.ushiftRight_xor_distrib]
  · rw [crcShift_of_low_clear hx, crcShift_of_low_set hy, crcShift_of_low_set hlow, BitVec.ushiftRight_xor_distrib,
      BitVec.xor_assoc]
  · rw [crcShift_of_low_set hx, crcShift_of_low_clear hy, crcShift_of_low_set hlow, BitVec.ushiftRight_xor_distrib]
    ac_rfl
  · rw [crcShift_of_low_set hx, crcShift_of_low_set hy, crcShift_of_low_clear hlow, BitVec.ushiftRight_xor_distrib,
      BitVec.xor_comm (y >>> 1), BitVec.xor_assoc, ← BitVec.xor_assoc _ _ (y >>> 1), BitVec.xor_self, BitVec.zero_xor]

theorem crcShifts_xor (n : Nat) (x y : Word) : crcShifts n (x ^^^ y) = crcShifts n x ^^^ crcShifts n y := by
  induction n generalizing x y with
  | zero => rfl
  | succ n ih => rw [crcShifts, crcShift_xor, ih]; rfl

/-- While the bits shifted out are zero the polynomial stays out. -/
theorem crcShifts_of_low_bits_zero {n : Nat} {r : Word} (h : ∀ i < n, r.getLsbD i = false) :
    crcShifts n r = r >>> n := by
  induction n generalizing r with
  | zero => exact (BitVec.ushiftRight_zero r).symm
  | succ n ih =>
    have hlow : ∀ i < n, (r >>> 1).getLsbD i = false := fun i hi => by
      rw [BitVec.getLsbD_ushiftRight]
      exact h (1 + i) (by omega)
    rw [crcShifts, crcShift_of_low_clear (h 0 n.succ_pos), ih hlow, ← BitVec.shiftRight_add, Nat.add_comm]

theorem xor_byte_ushiftRight (r : Word) (b : Byte) : (r ^^^ b.setWidth 32) >>> 8 = r >>> 8 := by
  have hb : b.setWidth 32 >>> 8 = 0#32 := by
    apply BitVec.eq_of_toNat_eq
    simp only [BitVec.toNat_ushiftRight, BitVec.toNat_setWidth, BitVec.toNat_ofNat, Nat.shiftRight_eq_div_pow]
    omega
  rw [BitVec.ushiftRight_xor_distrib, hb, BitVec.xor_zero]

/-- Eight shifts of a register: its upper 24 bits move down, and its low byte is looked up. -/
theorem crcShifts_eight (x : Word) : crcShifts 8 x = (x >>> 8) ^^^ crcUpdate 0#32 (x.extractLsb' 0 8) := by
  have hlow : ∀ i < 8, (x ^^^ (x.extractLsb' 0 8).setWidth 32).getLsbD i = false := fun i hi => by
    have hi32 : i < 32 := by omega
    simp [hi, hi32]
  calc crcShifts 8 x
      = crcShifts 8 ((x ^^^ (x.extractLsb' 0 8).setWidth 32) ^^^ (x.extractLsb' 0 8).setWidth 32) := by
        rw [BitVec.xor_assoc, BitVec.xor_self, BitVec.xor_zero]
    _ = (x >>> 8) ^^^ crcShifts 8 ((x.extractLsb' 0 8).setWidth 32) := by
        rw [crcShifts_xor, crcShifts_of_low_bits_zero hlow, xor_byte_ushiftRight]
    _ = (x >>> 8) ^^^ crcUpdate 0#32 (x.extractLsb' 0 8) := by rw [crcUpdate, BitVec.zero_xor]

/-- Settles O46: the byte fed in reaches only the low byte, which is the table's index. -/
theorem crcTableFormIsEqual : Obligations.CrcTableFormIsEqual := by
  intro r b
  rw [crcUpdate, crcShifts_eight, xor_byte_ushiftRight]

end Sys2Proof.Proofs.Crc
end

section
/-! PROOFS. The window extractor's commands: START, which rejects a window or runs on it, and EOI (42_window R170 to
R178). -/

namespace Sys2Proof.Proofs.Window

open Sys2Proof.Machine Sys2Proof.Claims

-- START.

theorem exec_start (s : State) : exec .start s = .next (startRun Config.maxWindow s) := rfl

/-- The four answers of START, each under its own condition on the window (60_exceptions R243). -/
theorem startRun_by_window (n : Nat) (s : State) :
    (s.winSize = 0#32 → startRun n s = rejected s .winZero)
      ∧ (s.winSize ≠ 0#32 → 2 ^ 32 < s.winStart.toNat + s.winSize.toNat → startRun n s = rejected s .winOverflow)
      ∧ (s.winSize ≠ 0#32 → s.winStart.toNat + s.winSize.toNat ≤ 2 ^ 32 → n < s.winSize.toNat →
          startRun n s = rejected s .winTooLarge)
      ∧ (s.winSize ≠ 0#32 → s.winStart.toNat + s.winSize.toNat ≤ 2 ^ 32 → s.winSize.toNat ≤ n →
          startRun n s = acceptWindow (clearRun s)) := by
  have hzero : s.winSize = 0#32 ↔ s.winSize.toNat = 0 := BitVec.toNat_inj.symm
  rw [Ne, hzero]
  rcases startRun_cases n s with ⟨h0, e⟩ | ⟨h0, hov, e⟩ | ⟨h0, hfit, hbig, e⟩ | ⟨h0, hfit, hroom, e⟩ <;> rw [e]
  · exact ⟨fun _ => rfl, (absurd h0 ·), (absurd h0 ·), (absurd h0 ·)⟩
  · exact ⟨(absurd · h0), fun _ _ => rfl, fun _ h => by omega, fun _ h => by omega⟩
  · exact ⟨(absurd · h0), fun _ h => by omega, fun _ _ _ => rfl, fun _ _ h => by omega⟩
  · exact ⟨(absurd · h0), fun _ h => by omega, fun _ _ h => by omega, fun _ _ _ => rfl⟩

/-- Settles O28: the first two checks ask nothing of the capacity, so the third is said of any. -/
theorem startRejectsBadWindows : Obligations.StartRejectsBadWindows := by
  intro s
  obtain ⟨hzero, hoverflow, -, -⟩ := startRun_by_window Config.maxWindow s
  refine ⟨fun h0 => ?_, fun h0 hov => ?_, fun n => ?_, exec_start s⟩
  · rw [exec_start, hzero h0]
  · rw [exec_start, hoverflow h0 hov]
  · obtain ⟨-, -, hlarge, -⟩ := startRun_by_window n s
    exact hlarge

/-- Settles O29: the accepted window is latched, and erasing is what a read of WBUF sees below its size. -/
theorem startAcceptsGoodWindows : Obligations.StartAcceptsGoodWindows := by
  intro s h0 hfit hroom
  obtain ⟨-, -, -, haccept⟩ := startRun_by_window Config.maxWindow s
  refine ⟨_, (exec_start s).trans (congrArg _ (haccept h0 hfit hroom)), rfl, fun i hi => ?_, fun i hi => ?_⟩
  · exact (Memory.read_eraseBelow s.wbuf _ i).trans (if_pos hi)
  · exact (Memory.read_eraseBelow s.wbuf _ i).trans (if_neg (Nat.not_lt.2 hi))

-- EOI.

theorem finishIfRunning_eq (s : State) : finishIfRunning s = if s.runState = .running then finished s else s := by
  rw [finishIfRunning, Assembler.finish_eq_finished]

/-- Settles O43: a pending line ends as under LF, and the finish is the one the claims write out. -/
theorem eoiByRunState : Obligations.EoiByRunState := by
  intro s
  have hexec : exec .eoi s = execEoi s := rfl
  rw [hexec]
  rcases execEoi_cases s with ⟨hr, e⟩ | ⟨hr | hr, e⟩ | ⟨hr, hp, e⟩ | ⟨hr, hp, e⟩ <;> rw [e, hr]
  · exact ⟨fun _ => by rw [cmdError, hr], nofun, nofun, nofun⟩
  · exact ⟨nofun, fun _ => rfl, nofun, nofun⟩
  · exact ⟨nofun, fun _ => rfl, nofun, nofun⟩
  · exact ⟨nofun, nofun, fun _ _ => congrArg _ (Assembler.finish_eq_finished s), fun _ h => absurd hp h⟩
  · exact ⟨nofun, nofun, fun _ h => absurd h hp,
      fun _ _ => ⟨_, Characters.exec_char_lf hr, congrArg _ (finishIfRunning_eq _)⟩⟩

end Sys2Proof.Proofs.Window
end

section
/-! PROOFS. The control interface (43_control R200 to R214): the reads, the writes and the two control commands, and the
output file as the host reads it out. -/

namespace Sys2Proof.Proofs.Control

open Sys2Proof.Machine

-- The reads.

/-- R208's condition as a proposition. -/
theorem bufDataWord_eq (s : State) :
    bufDataWord s = if s.bufValid = true ∧ s.bufIndex.toNat < s.actSize.toNat then
      (s.wbuf.read s.bufIndex.toNat).setWidth 32 else 0x100#32 := by
  simp only [bufDataWord, Bool.and_eq_true, decide_eq_true_eq]

theorem exec_rdBufData (s : State) : exec .rdBufData s = .next (respond (bufDataWord s) s) := rfl

theorem byte_setWidth_ne_noByte (b : Byte) : b.setWidth 32 ≠ 0x100#32 := fun h => by
  have hlt := b.isLt
  have hnat := congrArg BitVec.toNat h
  simp only [BitVec.toNat_setWidth, BitVec.toNat_ofNat] at hnat
  omega

/-- Settles O18: each read's word is written out in its register's layout, BUF_DATA's by R208's condition. -/
theorem readsAnswerTheirRegisters : Obligations.ReadsAnswerTheirRegisters := by
  intro s
  have hbuf := exec_rdBufData s
  rw [bufDataWord_eq] at hbuf
  exact ⟨rfl, rfl, rfl, rfl, rfl, rfl, rfl, rfl, rfl, rfl, rfl, rfl, rfl, hbuf, rfl, rfl⟩

/-- Settles O21: a zero-extended byte is below the "no byte" value, so the value tells the two cases apart. -/
theorem bufDataReads : Obligations.BufDataReads := by
  intro s
  refine ⟨_, exec_rdBufData s, rfl, ?_⟩
  rw [respond_readData, bufDataWord_eq]
  split_ifs with hbyte
  · exact ⟨fun _ _ => rfl, fun h => absurd h (byte_setWidth_ne_noByte _), absurd hbyte⟩
  · exact ⟨fun hv hi => absurd ⟨hv, hi⟩ hbyte, fun _ => hbyte, fun _ => rfl⟩

-- The output file.

theorem outputFile_eq_some_iff {s : State} {bs : List Byte} :
    outputFile s = some bs ↔ s.runState = .done ∧ s.wbuf.bytes s.actSize.toNat = bs := by
  unfold outputFile
  cases s.runState <;> simp

/-- Settles O56: in DONE the window is valid, so every index below ACT_SIZE reads a byte of it. -/
theorem outputFileIsWhatBufDataReads : Obligations.OutputFileIsWhatBufDataReads := by
  intro s bs hinv hfile
  obtain ⟨hdone, rfl⟩ := outputFile_eq_some_iff.1 hfile
  refine ⟨hdone, Memory.length_bytes _ _, fun i hi => ?_⟩
  obtain ⟨t, ht, -, hbyte, -⟩ := bufDataReads { s with bufIndex := i }
  have hlen : i.toNat < (s.wbuf.bytes s.actSize.toNat).length := (Memory.length_bytes _ _).symm ▸ hi
  refine ⟨t, ht, ?_⟩
  rw [hbyte (hinv.doneValid hdone) hi, List.getD_eq_getElem _ _ hlen, Memory.getElem_bytes]

-- The writes.

/-- Settles O24: each row's meaning is its store, and an ignored write's is none. -/
theorem registerWrites : Obligations.RegisterWrites :=
  fun _ _ _ => ⟨rfl, rfl, rfl, rfl⟩

/-- Settles O25: the write answers by the rule for every instruction, and what it answers is its command's answer. -/
theorem wrCmdRunsItsCommand : Obligations.WrCmdRunsItsCommand := by
  intro w s
  refine ⟨exec_wrCmd w s, fun hready => ?_⟩
  obtain ⟨hanswers, -⟩ := Answers.everyInstructionAnswers (.wrCmd w) s
  obtain ⟨t, ht⟩ := hanswers hready
  exact ⟨t, ht, (exec_wrCmd w s).symm.trans ht⟩

-- NOP and RESET.

theorem decodeCommand_nop (w : Word) : decodeCommand w = .nop ↔ w = 0#32 := by
  constructor
  · intro h
    have henc := Encoding.encode_decodeCommand w
    rw [h] at henc
    exact (Sys2Proof.Encoding.command.inj henc).symm
  · rintro rfl
    rfl

/-- A word is its fields OP, RSV and ARG (30_encoding R91). -/
theorem word_eq_fields (w : Word) : w = w.extractLsb' 24 8 ++ w.extractLsb' 8 16 ++ w.extractLsb' 0 8 := by
  rw [BitVec.extractLsb'_append_extractLsb'_eq_extractLsb' (by rfl),
    BitVec.extractLsb'_append_extractLsb'_eq_extractLsb' (by rfl), BitVec.extractLsb'_eq_self]

/-- With OP = 0x00 a non-zero word has a non-zero RSV or ARG, and R93 names both. -/
theorem isIllegalWord_of_op_zero {w : Word} (hop : w.extractLsb' 24 8 = 0x00#8) (hw : w ≠ 0#32) :
    isIllegalWord w = true := by
  rw [Encoding.isIllegalWord_iff, hop]
  by_cases hrsv : w.extractLsb' 8 16 = 0#16
  · have harg : w.extractLsb' 0 8 ≠ 0#8 := fun harg => hw (by rw [word_eq_fields w, hop, hrsv, harg]; rfl)
    exact .inr (.inr ⟨harg, by decide, by decide⟩)
  · exact .inr (.inl hrsv)

/-- Settles O26: NOP has the one word, and R93 makes the others with its OP illegal. -/
theorem nopChangesNothing : Obligations.NopChangesNothing :=
  ⟨fun _ => rfl, fun w => ⟨decodeCommand_nop w, fun hop hw =>
    (decodeCommand_illegal w w).2 ⟨rfl, isIllegalWord_of_op_zero hop hw⟩⟩⟩

/-- Settles O27: reset() lists each element at its reset value and takes the host's two fields from the state. -/
theorem resetCommandResets : Obligations.ResetCommandResets :=
  ⟨rfl, fun s => ⟨resetBlock s, rfl, rfl⟩⟩

end Sys2Proof.Proofs.Control
end

section
/-! PROOFS. No exceptions (60_exceptions R230, R250): a step from a state with the invariants never faults, and with no
access pending it keeps all state. -/

namespace Sys2Proof.Proofs.Exceptions

open Sys2Proof.Machine

theorem takeAccess_nil {s : State} (hp : s.pending = []) : takeAccess s = none := by
  simp [takeAccess, hp]

/-- Settles O8: there is no access to take, so nothing runs. -/
theorem stepIdlesBetweenAccesses : Obligations.StepIdlesBetweenAccesses := by
  intro s hp
  rw [step, takeAccess_nil hp]

/-- The payload index is half of the digit's number POS - 8. -/
theorem payloadIndex_of_le {pos : BitVec 10} (h8 : 8 ≤ pos.toNat) : payloadIndex pos = (pos.toNat - 8) / 2 := by
  have hpos := pos.isLt
  have hindex := Record.payloadIndex_ofNat (d := pos.toNat - 8) (by omega)
  rwa [Nat.add_sub_cancel' h8, BitVec.ofNat_toNat, BitVec.setWidth_eq] at hindex

/-- In PAY the position is among the digits of at most 255 bytes (10_state R47, R50). -/
theorem payloadReady_of_inv {s : State} (h : Inv s) : PayloadReady s := by
  intro hp
  obtain ⟨h8, hlt⟩ := h.payPos hp
  have hbc := s.bc.isLt
  rw [payloadIndex_of_le h8, Config.payloadCapacity]
  omega

/-- Settles O15: an idle step answers, an access that does not decode is refused, and an instruction that runs finds its
payload byte, so it answers too. -/
theorem invariantStatesNeverFault : Obligations.InvariantStatesNeverFault := by
  intro s hinv f
  cases hp : s.pending with
  | nil => rw [stepIdlesBetweenAccesses s hp]; nofun
  | cons a rest =>
    cases hd : decodeAccess a with
    | error why => rw [Bus.step_of_decodeAccess_error hp hd]; nofun
    | ok i =>
      have hready : PayloadReady s := payloadReady_of_inv hinv
      obtain ⟨hanswers, -⟩ := Answers.everyInstructionAnswers i { s with pending := rest }
      obtain ⟨t, ht⟩ := hanswers fun _ => hready
      rw [Scope.stepRunsDecodedInstruction s a rest i hp hd, ht]
      nofun

end Sys2Proof.Proofs.Exceptions
end

section
/-! PROOFS. Reset and hazards (70_reset R261, R262): the values after reset, and that no step lets a host see a buffer
byte the spec leaves unspecified. -/

namespace Sys2Proof.Proofs.Reset

open Sys2Proof.Machine

/-- Settles O12: the model's reset lists the table's values, and the registers with no storage compute from them. -/
theorem resetValues : Obligations.ResetValues :=
  ⟨rfl, rfl, rfl, rfl, rfl, rfl, rfl, rfl, rfl, rfl, rfl, rfl, rfl, rfl, rfl, rfl, rfl, rfl, rfl, rfl, rfl, rfl, rfl,
    rfl, rfl, rfl, rfl, Answers.maxWindowWord_toNat, rfl⟩

-- States with other buffers.

/-- `s` holding the buffers `p` and `w`. -/
def withBuffers (s : State) (p w : Memory) : State :=
  { s with pbuf := p, wbuf := w }

/-- Two states that look alike are one state with two pairs of buffers. -/
theorem exists_withBuffers {s t : State} (h : SameVisible s t) : ∃ p w, t = withBuffers s p w :=
  ⟨_, _, h.rest⟩

/-- Two outcomes that are both next states a host cannot tell apart. -/
def AnswersAlike (o o' : Host.Outcome State Fault Refusal) : Prop :=
  ∃ s t, o = .next s ∧ o' = .next t ∧ SameVisible s t

theorem answersAlike_next {s t : State} (h : SameVisible s t) : AnswersAlike (.next s) (.next t) :=
  ⟨s, t, rfl, rfl, h⟩

/-- The written payload bytes are those below (POS - 7) / 2 in PAY, and all BC of them in TRL. -/
theorem sameVisible_withBuffers {s : State} (hinv : Inv s) {p w : Memory}
    (hw : s.bufValid = true → ∀ i, i < s.actSize.toNat → s.wbuf.read i = w.read i)
    (hp : ∀ j, j < (s.pos.toNat - 7) / 2 → s.pbuf.read j = p.read j) : SameVisible s (withBuffers s p w) where
  rest := rfl
  window := hw
  payload _ := hp
  complete htrl j hj := hp j (by have := hinv.trlPos htrl; omega)

/-- A change to the registers alone: it does not look at the buffers, and it keeps them and all that says which of their
bytes show. -/
theorem sameVisible_registers {s t : State} (h : SameVisible s t) (f : State → State)
    (hf : ∀ u p w, f (withBuffers u p w) = withBuffers (f u) p w := by intros; rfl)
    (hkeep : ∀ u, f u = { f u with
      bufValid := u.bufValid, actSize := u.actSize, ph := u.ph, pos := u.pos, bc := u.bc
      pbuf := u.pbuf, wbuf := u.wbuf } := by intros; rfl) : SameVisible (f s) (f t) := by
  obtain ⟨p, w, rfl⟩ := exists_withBuffers h
  rw [hf, hkeep]
  exact { h with rest := rfl }

-- The reads.

/-- BUF_DATA shows a byte of the valid window or none at all (43_control R208). -/
theorem bufDataWord_congr {s t : State} (h : SameVisible s t) : bufDataWord t = bufDataWord s := by
  obtain ⟨p, w, rfl⟩ := exists_withBuffers h
  rw [Control.bufDataWord_eq, Control.bufDataWord_eq]
  exact if_ctx_congr Iff.rfl (fun hi => congrArg _ (h.window hi.1 _ hi.2).symm) fun _ => rfl

/-- A read answers one value in both states: no register but BUF_DATA is read from a buffer. -/
theorem exec_read_congr {a : Access} {i : Instr} (hd : decodeAccess a = .ok i) (hdir : a.dir = .read) {s t : State}
    (h : SameVisible s t) : ∃ v, exec i s = .next (respond v s) ∧ exec i t = .next (respond v t) := by
  by_cases hi : i = .rdBufData
  · subst hi
    exact ⟨bufDataWord s, Control.exec_rdBufData s, by rw [Control.exec_rdBufData, bufDataWord_congr h]⟩
  · obtain ⟨p, w, rfl⟩ := exists_withBuffers h
    have hmem := decodeAccess_read hd hdir
    simp only [List.mem_cons, List.not_mem_nil, or_false, hi, false_or] at hmem
    rcases hmem with rfl | rfl | rfl | rfl | rfl | rfl | rfl | rfl | rfl | rfl | rfl | rfl | rfl | rfl | rfl <;>
      exact ⟨_, rfl, rfl⟩

-- The parser.

theorem sameVisible_toBad {s t : State} (h : SameVisible s t) :
    SameVisible { s with ph := .bad } { t with ph := .bad } := by
  obtain ⟨p, w, rfl⟩ := exists_withBuffers h
  exact { h with rest := rfl, payload := nofun, complete := nofun }

theorem sameVisible_parseLineStart {s t : State} (h : SameVisible s t) (c : Byte) :
    SameVisible (parseLineStart c s) (parseLineStart c t) := by
  obtain ⟨p, w, rfl⟩ := exists_withBuffers h
  unfold parseLineStart
  split <;> exact { h with rest := rfl, payload := nofun, complete := nofun }

theorem pushHeaderDigit_withBuffers (n : Nat) (d : BitVec 4) (s : State) (p w : Memory) :
    pushHeaderDigit n d (withBuffers s p w) = withBuffers (pushHeaderDigit n d s) p w := by
  unfold pushHeaderDigit
  split_ifs <;> rfl

/-- A header digit moves POS to 8 at most, where no payload byte is written. -/
theorem answersAlike_headerDigit {s t : State} (hinv : Inv s) (h : SameVisible s t) (hr : s.runState = .running)
    (hp : s.ph = .hdr) {c : Byte} (hx : isHex c = true) : AnswersAlike (parseChar c s) (parseChar c t) := by
  obtain ⟨p, w, rfl⟩ := exists_withBuffers h
  have hs := Characters.parseChar_headerDigit hp hx
  have hpos : (s.pos + 1#10).toNat ≤ 8 := by
    have hlt := hinv.hdrPos hp
    rw [Invariants.toNat_succ_pos (by omega)]
    exact hlt
  rw [hs, Characters.parseChar_headerDigit (s := withBuffers s p w) hp hx, pushHeaderDigit_withBuffers]
  refine answersAlike_next (sameVisible_withBuffers (Invariants.inv_parseChar hinv hr hs) ?_ fun j hj => ?_)
  · rw [Characters.pushHeaderDigit_frame]
    exact h.window
  · exact absurd hj (by show ¬ j < ((s.pos + 1#10).toNat - 7) / 2; omega)

theorem parseChar_payloadDigit {s : State} (hp : s.ph = .pay) {c : Byte} (hx : isHex c = true)
    (hj : payloadIndex s.pos < Config.payloadCapacity) :
    parseChar c s = .next { s with
      pbuf := s.pbuf.write (payloadIndex s.pos) (payloadByte s.pos (s.pbuf.read (payloadIndex s.pos)) (hexVal c))
      pos := s.pos + 1#10
      ph := payloadPhase s } := by
  simp [parseChar, parsePayload, hp, hx, hj]

/-- The high digit takes nothing from the byte it replaces (40_record R128); the low digit's byte is already written. -/
theorem payloadByte_congr {pos : BitVec 10} (h8 : 8 ≤ pos.toNat) {b b' : Byte} (v : BitVec 4)
    (hb : payloadIndex pos < (pos.toNat - 7) / 2 → b = b') : payloadByte pos b v = payloadByte pos b' v := by
  rw [Exceptions.payloadIndex_of_le h8] at hb
  have hpos : pos = BitVec.ofNat 10 (8 + (pos.toNat - 8)) := by
    rw [Nat.add_sub_cancel' h8, BitVec.ofNat_toNat, BitVec.setWidth_eq]
  rw [hpos, Characters.payloadByte_ofNat, Characters.payloadByte_ofNat]
  exact if_ctx_congr Iff.rfl (fun _ => rfl) fun hodd => by rw [hb (by omega)]

/-- After a payload digit the written bytes are those written before and the digit's own. -/
theorem answersAlike_payloadDigit {s t : State} (hinv : Inv s) (hinv' : Inv t) (h : SameVisible s t)
    (hr : s.runState = .running) (hp : s.ph = .pay) {c : Byte} (hx : isHex c = true) :
    AnswersAlike (parseChar c s) (parseChar c t) := by
  obtain ⟨p, w, rfl⟩ := exists_withBuffers h
  obtain ⟨h8, hlt⟩ := hinv.payPos hp
  have hcap := Exceptions.payloadReady_of_inv hinv hp
  have hs := parseChar_payloadDigit hp hx hcap
  have hpos := Invariants.toNat_succ_pos hinv.posBound
  rw [hs, parseChar_payloadDigit (s := withBuffers s p w) hp hx hcap]
  refine answersAlike_next (sameVisible_withBuffers (Invariants.inv_parseChar hinv hr hs) h.window fun j hj => ?_)
  replace hj : j < ((s.pos + 1#10).toNat - 7) / 2 := hj
  have hbyte := payloadByte_congr h8 (hexVal c) fun hlow => h.payload hp _ hlow
  refine (Memory.read_write hinv.pbufForm _ j _).trans (.trans ?_ (Memory.read_write hinv'.pbufForm _ j _).symm)
  have hindex := Exceptions.payloadIndex_of_le h8
  exact if_ctx_congr Iff.rfl (fun _ => hbyte) fun (hne : j ≠ payloadIndex s.pos) => h.payload hp j (by omega)

theorem answersAlike_parseChar {s t : State} (hinv : Inv s) (hinv' : Inv t) (h : SameVisible s t)
    (hr : s.runState = .running) (c : Byte) : AnswersAlike (parseChar c s) (parseChar c t) := by
  have hph : t.ph = s.ph := by rw [h.rest]
  have hignored : (s.ph = .skip ∨ s.ph = .trl ∨ s.ph = .bad) → AnswersAlike (parseChar c s) (parseChar c t) := by
    intro hp
    rw [Characters.parseChar_ignored hp, Characters.parseChar_ignored (hph ▸ hp)]
    exact answersAlike_next h
  have hbad : (s.ph = .hdr ∨ s.ph = .pay) → isHex c = false → AnswersAlike (parseChar c s) (parseChar c t) := by
    intro hp hx
    rw [Characters.parseChar_badDigit hp hx, Characters.parseChar_badDigit (hph ▸ hp) hx]
    exact answersAlike_next (sameVisible_toBad h)
  cases hp : s.ph with
  | ls =>
    rw [Characters.parseChar_lineStart hp, Characters.parseChar_lineStart (hph.trans hp)]
    exact answersAlike_next (sameVisible_parseLineStart h c)
  | hdr =>
    cases hx : isHex c with
    | false => exact hbad (.inl hp) hx
    | true => exact answersAlike_headerDigit hinv h hr hp hx
  | pay =>
    cases hx : isHex c with
    | false => exact hbad (.inr hp) hx
    | true => exact answersAlike_payloadDigit hinv hinv' h hr hp hx
  | skip => exact hignored (.inl hp)
  | trl => exact hignored (.inr (.inl hp))
  | bad => exact hignored (.inr (.inr hp))

-- The end of a line and of a run.

/-- The checksum is taken over the window alone (42_window R178). -/
theorem sameVisible_finish {s t : State} (h : SameVisible s t) (hv : s.bufValid = true) :
    SameVisible (finish s) (finish t) := by
  obtain ⟨p, w, rfl⟩ := exists_withBuffers h
  have hbytes : w.bytes s.actSize.toNat = s.wbuf.bytes s.actSize.toNat := (Memory.bytes_congr (h.window hv)).symm
  have hchecksum : checksumBuffer (withBuffers s p w) = withBuffers (checksumBuffer s) p w := by
    simp only [checksumBuffer, withBuffers, hbytes]
  unfold finish
  show SameVisible (if s.anyHit then _ else _) (if s.anyHit then _ else _)
  split
  · exact { h with rest := hchecksum }
  · exact { h with rest := rfl }

/-- A window byte after a Data record is the payload byte placed last there, or the byte it held (41_memory R153). -/
theorem read_placedBytes_congr {s : State} {p w : Memory} (hs : s.wbuf.wf) (hw : w.wf)
    (hp : ∀ j, j < s.bc.toNat → s.pbuf.read j = p.read j) {k : Nat} (hk : s.wbuf.read k = w.read k) :
    Memory.read ((List.range s.bc.toNat).foldl (placePayloadByte s) s.wbuf) k
      = Memory.read ((List.range s.bc.toNat).foldl (placePayloadByte (withBuffers s p w)) w) k := by
  have hbc := s.bc.isLt
  obtain ⟨-, hin, hout, -⟩ := foldl_placePayloadByte s s.wbuf hs s.bc.toNat (by omega)
  obtain ⟨-, hin', hout', -⟩ := foldl_placePayloadByte (withBuffers s p w) w hw s.bc.toNat (by omega)
  by_cases hhit : ∃ i, i < s.bc.toNat ∧ payloadHits s i = true ∧ k = windowIndex s (payloadAddr s i)
  · obtain ⟨i, hi, hhit, rfl⟩ := hhit
    exact (hin i hi hhit).trans ((hp i hi).trans (hin' i hi hhit).symm)
  · have hnone : ∀ i, i < s.bc.toNat → payloadHits s i = true → k ≠ windowIndex s (payloadAddr s i) :=
      fun i hi hh he => hhit ⟨i, hi, hh, he⟩
    exact (hout k hnone).trans (hk.trans (hout' k hnone).symm)

theorem elaBase_congr {s t : State} (h : SameVisible s t) (hp : s.ph = .trl) (hbc : 2 ≤ s.bc.toNat) :
    elaBase t = elaBase s := by
  unfold elaBase
  rw [h.complete hp 0 (by omega), h.complete hp 1 (by omega)]

theorem sameVisible_commitData {s t : State} (hinv : Inv s) (hinv' : Inv t) (h : SameVisible s t) (hp : s.ph = .trl) :
    SameVisible (commitData s) (commitData t) := by
  obtain ⟨p, w, rfl⟩ := exists_withBuffers h
  exact { h with
    rest := rfl
    window := fun hv i hi =>
      read_placedBytes_congr hinv.wbufForm hinv'.wbufForm (h.complete hp) (h.window hv i hi) }

theorem sameVisible_commitEof {s t : State} (h : SameVisible s t) (hv : s.bufValid = true) :
    SameVisible (commitEof s) (commitEof t) :=
  sameVisible_finish (sameVisible_registers h fun u => { setLine .eof 0x01#8 u with termSeen := true }) hv

/-- A record too short for its operand reads no payload byte (41_memory R156). -/
theorem sameVisible_commitEla {s t : State} (h : SameVisible s t) (hp : s.ph = .trl) :
    SameVisible (commitEla s) (commitEla t) := by
  have hbc : t.bc = s.bc := by rw [h.rest]
  by_cases hshort : s.bc.toNat < 2
  · rw [commitEla, commitEla, if_pos hshort, if_pos (hbc ▸ hshort)]
    exact sameVisible_registers h (lineError _)
  · rw [commitEla, commitEla, if_neg hshort, if_neg (hbc ▸ hshort), elaBase_congr h hp (Nat.not_lt.1 hshort)]
    exact sameVisible_registers h fun u => setLine .ela 0x04#8 { u with highBase := elaBase s }

/-- The commit of a complete record in a run reads written payload bytes and window bytes only. -/
theorem sameVisible_commit {s t : State} (hinv : Inv s) (hinv' : Inv t) (h : SameVisible s t)
    (hv : s.bufValid = true) (hp : s.ph = .trl) : SameVisible (commit s) (commit t) := by
  have hrtype : t.rtype = s.rtype := by rw [h.rest]
  unfold commit
  rw [hrtype]
  cases decodeRecordType s.rtype with
  | data => exact sameVisible_commitData hinv hinv' h hp
  | eof => exact sameVisible_commitEof h hv
  | ela => exact sameVisible_commitEla h hp
  | ignored => exact sameVisible_registers h (setLine _ _)

theorem sameVisible_closeLine {s t : State} (hinv : Inv s) (hinv' : Inv t) (h : SameVisible s t)
    (hv : s.bufValid = true) : SameVisible (closeLine s) (closeLine t) := by
  have hph : t.ph = s.ph := by rw [h.rest]
  unfold closeLine
  rw [hph]
  cases hp : s.ph with
  | ls | skip => exact sameVisible_registers h (setLine _ _)
  | hdr | pay | bad => exact sameVisible_registers h (lineError _)
  | trl => exact sameVisible_commit hinv hinv' h hv hp

/-- At the start of a line no payload byte is written. -/
theorem sameVisible_lineStart {s t : State} (h : SameVisible s t) :
    SameVisible { s with ph := .ls, pos := 0#10 } { t with ph := .ls, pos := 0#10 } := by
  obtain ⟨p, w, rfl⟩ := exists_withBuffers h
  exact { h with rest := rfl, payload := nofun, complete := nofun }

theorem sameVisible_endOfLine {s t : State} (hinv : Inv s) (hinv' : Inv t) (h : SameVisible s t)
    (hv : s.bufValid = true) : SameVisible (endOfLine s) (endOfLine t) :=
  sameVisible_lineStart (sameVisible_closeLine { hinv with } { hinv' with }
    (sameVisible_registers h fun u => { u with lineCount := u.lineCount + 1#32 }) hv)

-- The commands.

/-- RESET lists no byte in either buffer. -/
theorem resetBlock_congr {s t : State} (h : SameVisible s t) : resetBlock t = resetBlock s := by
  obtain ⟨p, w, rfl⟩ := exists_withBuffers h
  rfl

theorem sameVisible_refl (s : State) : SameVisible s s :=
  ⟨rfl, fun _ _ _ => rfl, fun _ _ _ => rfl, fun _ _ _ => rfl⟩

/-- A rejecting START leaves no window and no line. -/
theorem sameVisible_reject {s t : State} (h : SameVisible s t) (code : FatalCode) :
    SameVisible (fatalError code { clearRun s with bufValid := false })
      (fatalError code { clearRun t with bufValid := false }) := by
  obtain ⟨p, w, rfl⟩ := exists_withBuffers h
  exact ⟨rfl, nofun, nofun, nofun⟩

/-- An accepting START erases the whole of its window (42_window R174). -/
theorem sameVisible_accept {s t : State} (h : SameVisible s t) :
    SameVisible (acceptWindow (clearRun s)) (acceptWindow (clearRun t)) := by
  have herased : ∀ (m : Memory) (i : Nat), i < s.winSize.toNat →
      (m.eraseBelow s.winSize.toNat).read i = Memory.unlisted :=
    fun m i hi => (Memory.read_eraseBelow m _ i).trans (if_pos hi)
  obtain ⟨p, w, rfl⟩ := exists_withBuffers h
  exact ⟨rfl, fun _ i hi => (herased s.wbuf i hi).trans (herased w i hi).symm, nofun, nofun⟩

theorem sameVisible_startRun {s t : State} (h : SameVisible s t) (n : Nat) :
    SameVisible (startRun n s) (startRun n t) := by
  have hsize : t.winSize = s.winSize := by rw [h.rest]
  have hstart : t.winStart = s.winStart := by rw [h.rest]
  simp only [startRun, hsize, hstart]
  split_ifs
  · exact sameVisible_reject h _
  · exact sameVisible_reject h _
  · exact sameVisible_reject h _
  · exact sameVisible_accept h

theorem answersAlike_char {s t : State} (hinv : Inv s) (hinv' : Inv t) (h : SameVisible s t) (c : Byte) :
    AnswersAlike (exec (.char c) s) (exec (.char c) t) := by
  have hrun : t.runState = s.runState := by rw [h.rest]
  have hended : s.runState = .done ∨ s.runState = .failed → AnswersAlike (exec (.char c) s) (exec (.char c) t) := by
    intro hr
    rw [Characters.exec_char_ended hr, Characters.exec_char_ended (hrun ▸ hr)]
    exact answersAlike_next h
  cases hr : s.runState with
  | idle =>
    rw [Characters.exec_char_idle hr, Characters.exec_char_idle (hrun.trans hr)]
    exact answersAlike_next (sameVisible_registers h cmdError)
  | done => exact hended (.inl hr)
  | failed => exact hended (.inr hr)
  | running =>
    have hr' := hrun.trans hr
    by_cases hcr : c = 0x0D#8
    · rw [hcr, Characters.exec_char_cr hr, Characters.exec_char_cr hr']
      exact answersAlike_next h
    by_cases hlf : c = 0x0A#8
    · obtain ⟨hv, -⟩ := hinv.runningWindow hr
      rw [hlf, Characters.exec_char_lf hr, Characters.exec_char_lf hr']
      exact answersAlike_next (sameVisible_endOfLine hinv hinv' h hv)
    · rw [Characters.exec_char_parse hr hcr hlf, Characters.exec_char_parse hr' hcr hlf]
      exact answersAlike_parseChar hinv hinv' h hr c

theorem sameVisible_endPendingLine {s t : State} (hinv : Inv s) (hinv' : Inv t) (h : SameVisible s t)
    (hv : s.bufValid = true) : SameVisible (endPendingLine s) (endPendingLine t) := by
  have hph : t.ph = s.ph := by rw [h.rest]
  unfold endPendingLine
  rw [hph]
  split_ifs
  · exact h
  · exact sameVisible_endOfLine hinv hinv' h hv

theorem endPendingLine_bufValid (s : State) : (endPendingLine s).bufValid = s.bufValid := by
  unfold endPendingLine
  split_ifs
  · rfl
  · exact endOfLine_bufValid s

theorem sameVisible_finishIfRunning {s t : State} (h : SameVisible s t) (hv : s.bufValid = true) :
    SameVisible (finishIfRunning s) (finishIfRunning t) := by
  have hrun : t.runState = s.runState := by rw [h.rest]
  unfold finishIfRunning
  rw [hrun]
  split_ifs
  · exact sameVisible_finish h hv
  · exact h

theorem answersAlike_eoi {s t : State} (hinv : Inv s) (hinv' : Inv t) (h : SameVisible s t) :
    AnswersAlike (execEoi s) (execEoi t) := by
  have hrun : t.runState = s.runState := by rw [h.rest]
  unfold execEoi
  rw [hrun]
  cases hr : s.runState with
  | idle => exact answersAlike_next (sameVisible_registers h cmdError)
  | done | failed => exact answersAlike_next h
  | running =>
    obtain ⟨hv, -⟩ := hinv.runningWindow hr
    exact answersAlike_next (sameVisible_finishIfRunning (sameVisible_endPendingLine hinv hinv' h hv)
      ((endPendingLine_bufValid s).trans hv))

theorem answersAlike_command {s t : State} (hinv : Inv s) (hinv' : Inv t) (h : SameVisible s t) (c : Command) :
    AnswersAlike (exec (commandInstr c) s) (exec (commandInstr c) t) := by
  cases c with
  | nop => exact answersAlike_next h
  | illegal w => exact answersAlike_next (sameVisible_registers h cmdError)
  | reset => exact answersAlike_next (resetBlock_congr h ▸ sameVisible_refl (resetBlock s))
  | start => exact answersAlike_next (sameVisible_startRun h _)
  | char b => exact answersAlike_char hinv hinv' h b
  | eoi => exact answersAlike_eoi hinv hinv' h
  | crcInit => exact answersAlike_next (sameVisible_registers h fun u => { u with crcState := Config.crcOnes })
  | crcByte b =>
    exact answersAlike_next (sameVisible_registers h fun u => { u with crcState := crcUpdate u.crcState b })

-- The step.

/-- Every instruction a host access decodes to. -/
theorem answersAlike_exec {s t : State} (hinv : Inv s) (hinv' : Inv t) (h : SameVisible s t) {a : Access} {i : Instr}
    (hd : decodeAccess a = .ok i) : AnswersAlike (exec i s) (exec i t) := by
  cases hdir : a.dir with
  | read =>
    obtain ⟨v, hs, ht⟩ := exec_read_congr hd hdir h
    rw [hs, ht]
    exact answersAlike_next (sameVisible_registers h (respond v))
  | write =>
    obtain ⟨-, ⟨-, rfl⟩ | ⟨-, rfl⟩ | ⟨-, rfl⟩ | ⟨-, rfl⟩ | ⟨o, -, rfl⟩⟩ := decodeAccess_write hd hdir
    · rw [exec_wrCmd, exec_wrCmd]
      exact answersAlike_command hinv hinv' h _
    · exact answersAlike_next (sameVisible_registers h fun u => { u with winStart := a.data })
    · exact answersAlike_next (sameVisible_registers h fun u => { u with winSize := a.data })
    · exact answersAlike_next (sameVisible_registers h fun u => { u with bufIndex := a.data })
    · exact answersAlike_next h

/-- Settles O16: the next access is the same in both states; it decodes or not whatever the buffers hold, and what it
runs reads window bytes below ACT_SIZE and written payload bytes only. -/
theorem unspecifiedBufferBytesNeverObservable : Obligations.UnspecifiedBufferBytesNeverObservable := by
  intro s t hinv hinv' h
  have hpending : t.pending = s.pending := by rw [h.rest]
  cases hp : s.pending with
  | nil =>
    exact .inl ⟨s, t, Exceptions.stepIdlesBetweenAccesses s hp,
      Exceptions.stepIdlesBetweenAccesses t (hpending.trans hp), h⟩
  | cons a rest =>
    have hp' := hpending.trans hp
    cases hd : decodeAccess a with
    | error why =>
      exact .inr ⟨_, Bus.step_of_decodeAccess_error hp hd, Bus.step_of_decodeAccess_error hp' hd⟩
    | ok i =>
      rw [Scope.stepRunsDecodedInstruction s a rest i hp hd, Scope.stepRunsDecodedInstruction t a rest i hp' hd]
      exact .inl (answersAlike_exec (Invariants.inv_of_hostFields hinv _ _ _ _ _ rest _)
        (Invariants.inv_of_hostFields hinv' _ _ _ _ _ rest _)
        (sameVisible_registers h fun u => { u with pending := rest }) hd)

end Sys2Proof.Proofs.Reset
end
